-- ==== Sys2Proof/Word.lean ====
section
/-! DEFINITION. The byte, the byte sequence and the exact rational of spec/00_scope.md R8, R9, R10. -/

namespace Sys2Proof

/-- One unit of the stream (R8): eight bits, bit 0 the least significant. -/
abbrev Byte := BitVec 8

/-- A candidate frame (RawFrame): the bytes in arrival order (R9, R27). -/
abbrev Frame := List Byte

/-- A sequence of exactly four like things. -/
structure Four (α : Type) where
  k0 : α
  k1 : α
  k2 : α
  k3 : α
  deriving DecidableEq, Repr

/-- A sequence of exactly six like things. -/
structure Six (α : Type) where
  k0 : α
  k1 : α
  k2 : α
  k3 : α
  k4 : α
  k5 : α
  deriving DecidableEq, Repr

end Sys2Proof
end

