-- ==== Sys2Proof/Config.lean ====
section
/-! DEFINITION. What a build of FSYNC fixes: the constants of spec/00_scope.md R6, the types of the open parameters of
R7, the defaults the spec names for some of them, and an opaque constant for each parameter that has none. -/

namespace Sys2Proof

/-! ## Constants (R6) -/

/-- DELIM, the start delimiter (R6). -/
abbrev Config.delim : Byte := 0x2E#8

/-- FRAME_MIN: delimiter, function id, length, checksum (R6, R90). -/
abbrev Config.frameMin : Nat := 4

/-- CKS_INV, the XOR mask of the checksum (R6, R95). -/
abbrev Config.cksInv : Byte := 0xFF#8

/-- The longest well-formed frame, the least BUF_CAP of a finite build (R48, R190). -/
abbrev Config.longestFrame : Nat := 259

/-! ## The look-up table (R115) -/

/-- NameTag: the symbolic name of a LUT entry. R7 asks only for decidable equality, so a tag is a number
(DESIGN CHOICE, entry 4); two ids may have one name (R135). -/
structure NameTag where
  tag : Nat
  deriving DecidableEq, Repr

/-- The twelve decoder routines (R65). -/
inductive Decoder where
  | radarFront | radarRear | oilElec | swcAngle | basicFly | travelOil
  | carDoor | tpms | acState | carInfo | dataRequest | acSetting
  deriving DecidableEq, Repr

/-- What the LUT answers for an id: `miss`, or a name with a decoder or none (R65, R115). -/
inductive Look where
  | miss
  | hit (name : NameTag) (dec : Option Decoder)
  deriving DecidableEq, Repr

/-- One row of the LUT: FunctionEntry with its optional decoder (R115, 90_conflicts C9). -/
structure LutRow where
  fid : Byte
  name : NameTag
  dec : Option Decoder
  deriving DecidableEq, Repr

/-- The LUT as the list of its hits, by rising id; an id with no row misses. -/
abbrev Lut := List LutRow

/-- LUT_TV, the reference table of 95_test_vectors section 0, the smallest that R66 to R69 allow
(DESIGN CHOICE, unsafe: entry 3). -/
def Config.lutReference : Lut :=
  [⟨0x1D#8, ⟨29⟩, some .radarFront⟩, ⟨0x25#8, ⟨37⟩, some .tpms⟩, ⟨0x82#8, ⟨130⟩, none⟩,
   ⟨0x90#8, ⟨144⟩, none⟩, ⟨0xC0#8, ⟨192⟩, none⟩, ⟨0xC8#8, ⟨200⟩, none⟩]

/-! ## Parameters with a default in the spec (R7): plain data, held in State -/

/-- FLAG_ORDER (R7, R150, R151). -/
inductive FlagOrder where
  | descending
  | ascending
  deriving DecidableEq, Repr

/-- The build parameters for which the spec names a value (R7, D4, D18, D19). -/
structure Params where
  /-- BUF_CAP; `none` is infinity (R7, R190). -/
  bufCap : Option Nat
  /-- FLAG_ORDER (R150, R151). -/
  flagOrder : FlagOrder
  /-- BF_OFF_SPEED (R149). -/
  bfOffSpeed : Nat
  /-- BF_OFF_TIME (R149). -/
  bfOffTime : Nat
  /-- BF_OFF_MILEAGE (R149). -/
  bfOffMileage : Nat
  /-- BF_OFF_UNIT (R149). -/
  bfOffUnit : Nat
  /-- BF_UNIT_KEYS, the key of the space unit (R149). -/
  bfKeySpace : Byte
  /-- BF_UNIT_KEYS, the key of "Mile" (R149). -/
  bfKeyMile : Byte
  /-- BF_UNIT_KEYS, the key of "Km" (R149). -/
  bfKeyKm : Byte
  /-- ML_BASIC_FLY (R141). -/
  mlBasicFly : Nat
  /-- TO_OFF[0..5] (R156). -/
  toOff : Six Nat
  /-- ML_TRAVEL_OIL (R141). -/
  mlTravelOil : Nat
  deriving DecidableEq, Repr

/-- The spec's defaults (R7, R149, R156, D4, D18, D19; DESIGN CHOICE, unsafe: entry 5). -/
def Config.defaults : Params where
  bufCap := none
  flagOrder := .descending
  bfOffSpeed := 0
  bfOffTime := 2
  bfOffMileage := 4
  bfOffUnit := 6
  bfKeySpace := 0#8
  bfKeyMile := 1#8
  bfKeyKm := 2#8
  mlBasicFly := 7
  toOff := ⟨1, 3, 5, 7, 9, 11⟩
  mlTravelOil := 13

/-! ## Parameters with no default in the spec: free values (entry 6) -/

/-- A text of a message that the source does not print (R143: texts are constructors, not strings). -/
structure Label where
  tag : Nat
  deriving DecidableEq, Repr, Inhabited

/-- One value of a field map (R124 "field map", R158). -/
inductive FieldValue where
  | flag (b : Bool)
  | number (q : Rat)
  | text (l : Label)
  deriving DecidableEq, Repr

/-- A field map: names with values (R124, R158). -/
abbrev FieldMap := List (Label × FieldValue)

/-- The label of a travel unit (R156): three the source prints, four EV labels it does not, or another text for a code
outside the table. -/
inductive TravelLabel where
  | mpg
  | kmh
  | l100km
  | ev (k : Fin 4)
  | other (l : Option Label)
  deriving DecidableEq, Repr, Inhabited

/-- The (label, reference-minutes) pair of R156. -/
structure TravelUnit where
  label : TravelLabel
  minutes : Option Nat
  deriving DecidableEq, Repr, Inhabited

/-- Rear airflow state, direction and auto mode, the three fields of byte 7's high nibble (R152). -/
structure RearAirflow where
  state : Nat
  direction : Nat
  auto : Nat
  deriving DecidableEq, Repr, Inhabited

/-- The scale of a CarInfo mode 2 integer: none, ×0.1 or ×0.01 (R158). -/
inductive CiScale where
  | one
  | tenth
  | hundredth
  deriving DecidableEq, Repr

/-- One big-endian integer of CarInfo mode 2 (R158): its name, offset, byte count and scale. -/
structure CiField where
  name : Label
  off : Nat
  cnt : Nat
  scale : CiScale
  deriving DecidableEq, Repr

/-- TPMS_UNIT_10: the unit code on unit bits `10` (R154). -/
opaque Config.tpmsUnit10 : Nat

/-- AC_B7_LAYOUT: how the high nibble of byte 7 holds its three fields (R152, entry 14). -/
opaque Config.acB7Layout : BitVec 4 → RearAirflow

/-- TO_UNIT_TABLE: the unit code that selects row k of the seven rows (R156). -/
opaque Config.toUnitKey : Fin 7 → Byte

/-- TO_UNIT_DEFAULT: the unit of a code outside the table (R156, U11, entry 12). -/
opaque Config.toUnitDefault : Byte → TravelUnit

/-- ML_CAR_INFO(mode) for modes 1, 2, 3 (R141, R158). -/
opaque Config.mlCarInfo : Byte → Nat

/-- CI_MODE1_LAYOUT: payload to field map, `none` for ShortPayload (R158, entry 13). -/
opaque Config.ciMode1Layout : List Byte → Option FieldMap

/-- CI_MODE2_LAYOUT: payload to its big-endian integers, in order, `none` for ShortPayload (R158, entry 13). -/
opaque Config.ciMode2Layout : List Byte → Option (List CiField)

/-- CI_MODE3_LAYOUT: payload to field map, `none` for ShortPayload (R158, entry 13). -/
opaque Config.ciMode3Layout : List Byte → Option FieldMap

/-- DR_LABEL: the label of a DataRequest code, `none` for an unrecognised one (R159). -/
opaque Config.drLabel : Byte → Option Label

/-- AS_LABEL: the label of an ACSetting code, `none` for an unrecognised one (R159). -/
opaque Config.asLabel : Byte → Option Label

end Sys2Proof
end

