-- ==== Sys2Proof/Syntax.lean ====
section
/-! DEFINITION. The operations of FSYNC: one constructor of `Instr` per row of spec/opcode_table.json, and the forms in
which an operation reaches the machine (spec/30_encoding.md R60, R61). -/

namespace Sys2Proof

/-- What the environment can do between two steps (R30, R34, R35): deliver a byte, deliver "no data", apply the reset
action. It can also stop, which is the end of the list of stimuli. -/
inductive Stimulus where
  | byte (b : Byte)
  | noData
  | reset
  deriving DecidableEq, Repr

/-- Byte order of one read of the Integer Field Reader (R42, R105). -/
inductive Endian where
  | le
  | be
  deriving DecidableEq, Repr

/-- The rows of format frame.all: they apply to every candidate frame and have no selecting bits. -/
inductive FrameOp where
  | checkMin | parseHeader | slicePayload | cksRx | cksCalc | cksCompare
  | lookup | suppressTest | suppressUpdate | dispatch | decode | processFrame
  deriving DecidableEq, Repr

/-- The operations, in the table's order. A frame-level operation's operand `f` is the candidate frame. `name`, `dec`
and `look` are what LOOKUP answered for the frame's function id when the operation was decoded (R116). -/
inductive Instr where
  | delim
  | append (b : Byte)
  | noData
  | checkMin (f : Frame)
  | parseHeader (f : Frame)
  | slicePayload (f : Frame)
  | cksRx (f : Frame)
  | cksCalc (f : Frame)
  | cksCompare (f : Frame)
  | lookup (f : Frame)
  | suppressTest (f : Frame)
  | suppressUpdate (f : Frame)
  | dispatch (f : Frame)
  | decode (f : Frame)
  | processFrame (f : Frame)
  | radarFront (name : NameTag) (f : Frame)
  | tpms (name : NameTag) (f : Frame)
  | req130 (name : NameTag) (dec : Option Decoder) (f : Frame)
  | req144 (name : NameTag) (dec : Option Decoder) (f : Frame)
  | req192 (name : NameTag) (dec : Option Decoder) (f : Frame)
  | req200 (name : NameTag) (dec : Option Decoder) (f : Frame)
  | radarRear (name : NameTag) (f : Frame)
  | oilElec (name : NameTag) (f : Frame)
  | basicFly (name : NameTag) (f : Frame)
  | carDoor (name : NameTag) (f : Frame)
  | acState (name : NameTag) (f : Frame)
  | travelOil (name : NameTag) (f : Frame)
  | swcAngle (name : NameTag) (f : Frame)
  | carInfo (name : NameTag) (f : Frame)
  | dataRequest (name : NameTag) (f : Frame)
  | acSetting (name : NameTag) (f : Frame)
  | unknownFid (f : Frame)
  | fid46 (look : Look) (f : Frame)
  | rdle (w : List Byte) (off cnt : Nat)
  | rdbe (w : List Byte) (off cnt : Nat)
  | reset
  deriving DecidableEq, Repr

/-- What the decoder is given: a stimulus (R60, R201), a stage of the per-frame procedure with its candidate frame
(selected by its place in R117, not by bits), a candidate frame whose function id selects (R65 to R72), or a call of the
reader unit (R105, selected by no input bits). -/
inductive Fetched where
  | stim (x : Stimulus)
  | stage (op : FrameOp) (f : Frame)
  | candidate (f : Frame)
  | reader (e : Endian) (w : List Byte) (off cnt : Nat)
  deriving DecidableEq, Repr

end Sys2Proof
end

