-- ==== Sys2Proof/Decode.lean ====
section
/-! DEFINITION. The decoder and, after it, the encoder (spec/30_encoding.md R60 to R74). -/

namespace Sys2Proof

/-! ## Look-up (R115, R116) -/

/-- `LUT(fid)`: the row of that id, `miss` where there is none (R69, R115). -/
def lookLut (lut : Lut) (fid : Byte) : Look :=
  match lut.find? (fun r => r.fid == fid) with
  | some r => .hit r.name r.dec
  | none => .miss

/-- The function id of a candidate frame, byte 1 (R91). Read only after the length gate of R90 has passed. -/
def frameFid (f : Frame) : Byte := f.getD 1 0#8

/-! ## Stream level (R60) -/

/-- Each stimulus selects one operation: 0x2E is DELIM, any other byte APPEND, no byte NODATA (R60), and the reset
action RESET (R201). -/
def decodeStimulus : Stimulus → Instr
  | .byte b => if b = Config.delim then .delim else .append b
  | .noData => .noData
  | .reset => .reset

/-! ## Frame level (R61 to R72) -/

/-- Why a form is no operation. -/
inductive Reject where
  /-- Fewer than four bytes, where the operation needs a whole header and a checksum byte (R90, R91). -/
  | frameTooShort
  /-- No candidate frame is empty (R84). -/
  | emptyFrame
  deriving DecidableEq, Repr

/-- A stage of R117 on a candidate frame; every stage after the length gate has four bytes or more. -/
def decodeStage (op : FrameOp) (f : Frame) : Except Reject Instr :=
  match op with
  | .checkMin => if f = [] then .error .emptyFrame else .ok (.checkMin f)
  | .processFrame => if f = [] then .error .emptyFrame else .ok (.processFrame f)
  | .parseHeader => if f.length < 4 then .error .frameTooShort else .ok (.parseHeader f)
  | .slicePayload => if f.length < 4 then .error .frameTooShort else .ok (.slicePayload f)
  | .cksRx => if f.length < 4 then .error .frameTooShort else .ok (.cksRx f)
  | .cksCalc => if f.length < 4 then .error .frameTooShort else .ok (.cksCalc f)
  | .cksCompare => if f.length < 4 then .error .frameTooShort else .ok (.cksCompare f)
  | .lookup => if f.length < 4 then .error .frameTooShort else .ok (.lookup f)
  | .suppressTest => if f.length < 4 then .error .frameTooShort else .ok (.suppressTest f)
  | .suppressUpdate => if f.length < 4 then .error .frameTooShort else .ok (.suppressUpdate f)
  | .dispatch => if f.length < 4 then .error .frameTooShort else .ok (.dispatch f)
  | .decode => if f.length < 4 then .error .frameTooShort else .ok (.decode f)

/-- The rows of the head-unit requests, ids 130, 144, 192, 200 (R68). -/
def requestRow (fid : Byte) : Option (NameTag → Option Decoder → Frame → Instr) :=
  if fid = 0x82#8 then some .req130
  else if fid = 0x90#8 then some .req144
  else if fid = 0xC0#8 then some .req192
  else if fid = 0xC8#8 then some .req200
  else none

/-- The row of an identified function: the decoder's own row where the id is one the row admits, else the request row
of the id, else PROCESS_FRAME, the row of every candidate frame (entry 9). -/
def identifiedRow (fid : Byte) (name : NameTag) (dec : Option Decoder) (f : Frame) : Instr :=
  match dec with
  | some .dataRequest => .dataRequest name f
  | some .acSetting => .acSetting name f
  | _ =>
    match requestRow fid with
    | some row => row name dec f
    | none =>
      match dec with
      | some .radarFront => if fid = 0x1D#8 then .radarFront name f else .processFrame f
      | some .tpms => if fid = 0x25#8 then .tpms name f else .processFrame f
      | some .radarRear => .radarRear name f
      | some .oilElec => .oilElec name f
      | some .swcAngle => .swcAngle name f
      | some .basicFly => .basicFly name f
      | some .travelOil => .travelOil name f
      | some .carDoor => .carDoor name f
      | some .acState => .acState name f
      | some .carInfo => .carInfo name f
      | _ => .processFrame f

/-- A candidate frame as an instruction: the function id, through the LUT, is its opcode (R5, R65 to R72). -/
def decodeCandidate (lut : Lut) (f : Frame) : Except Reject Instr :=
  if f.length < 4 then .error .frameTooShort
  else if frameFid f = 0x2E#8 then .ok (.fid46 (lookLut lut (frameFid f)) f)
  else
    match lookLut lut (frameFid f) with
    | .miss => .ok (.unknownFid f)
    | .hit name dec => .ok (identifiedRow (frameFid f) name dec f)

/-- The decoder, total on every form. -/
def decode (lut : Lut) : Fetched → Except Reject Instr
  | .stim x => .ok (decodeStimulus x)
  | .stage op f => decodeStage op f
  | .candidate f => decodeCandidate lut f
  | .reader .le w off cnt => .ok (.rdle w off cnt)
  | .reader .be w off cnt => .ok (.rdbe w off cnt)

/-! ## The encoder -/

/-- The form of an operation, from the same tables: the delimiter byte, the operand byte, the side-band events, the
stage and its frame, or the candidate frame whose byte 1 is the opcode. -/
def encode : Instr → Fetched
  | .delim => .stim (.byte 0x2E#8)
  | .append b => .stim (.byte b)
  | .noData => .stim .noData
  | .checkMin f => .stage .checkMin f
  | .parseHeader f => .stage .parseHeader f
  | .slicePayload f => .stage .slicePayload f
  | .cksRx f => .stage .cksRx f
  | .cksCalc f => .stage .cksCalc f
  | .cksCompare f => .stage .cksCompare f
  | .lookup f => .stage .lookup f
  | .suppressTest f => .stage .suppressTest f
  | .suppressUpdate f => .stage .suppressUpdate f
  | .dispatch f => .stage .dispatch f
  | .decode f => .stage .decode f
  | .processFrame f => .stage .processFrame f
  | .radarFront _ f => .candidate f
  | .tpms _ f => .candidate f
  | .req130 _ _ f => .candidate f
  | .req144 _ _ f => .candidate f
  | .req192 _ _ f => .candidate f
  | .req200 _ _ f => .candidate f
  | .radarRear _ f => .candidate f
  | .oilElec _ f => .candidate f
  | .basicFly _ f => .candidate f
  | .carDoor _ f => .candidate f
  | .acState _ f => .candidate f
  | .travelOil _ f => .candidate f
  | .swcAngle _ f => .candidate f
  | .carInfo _ f => .candidate f
  | .dataRequest _ f => .candidate f
  | .acSetting _ f => .candidate f
  | .unknownFid f => .candidate f
  | .fid46 _ f => .candidate f
  | .rdle w off cnt => .reader .le w off cnt
  | .rdbe w off cnt => .reader .be w off cnt
  | .reset => .stim .reset

/-- CKS(f, P) of R74: the checksum a sender computes for function id `fid` and payload `p`. -/
def cksOf (fid : Byte) (p : List Byte) : Byte :=
  BitVec.ofNat 8 (fid.toNat + p.length + (p.map BitVec.toNat).sum) ^^^ Config.cksInv

/-- BADFRAME(f; P; c) of R74. -/
def badFrame (fid : Byte) (p : List Byte) (c : Byte) : Frame :=
  [Config.delim, fid, BitVec.ofNat 8 p.length] ++ p ++ [c]

/-- FRAME(f; P) of R74. -/
def wireFrame (fid : Byte) (p : List Byte) : Frame := badFrame fid p (cksOf fid p)

/-! ## Words of the opcode table -/

/-- The bytes of a table word, the first the least significant eight bits. -/
def tableBytes (nbits w : Nat) : List Byte :=
  (List.range ((nbits + 7) / 8)).map fun k => BitVec.ofNat 8 (w % 2 ^ nbits / 2 ^ (8 * k))

/-- The function ids that a row of format frame.fid fixes, 46 apart (entry 9). -/
def fixedFids : List Byte := [0x1D#8, 0x25#8, 0x82#8, 0x90#8, 0xC0#8, 0xC8#8]

/-- The form a table word stands for (entry 9). No bits: the side-band NODATA. One byte: the function id at byte 1 of a
candidate frame whose other bytes are 0 (but for its delimiter) where a frame.fid row fixes that id, else the byte as a
stream event. Several bytes: a candidate frame. -/
def tableForm (nbits w : Nat) : Fetched :=
  match tableBytes nbits w with
  | [] => .stim .noData
  | [b] => if fixedFids.contains b then .candidate [Config.delim, b, 0#8, 0#8] else .stim (.byte b)
  | f => .stage .processFrame f

/-- What the decoder reads from a table word, with the LUT of reset. -/
def decodeTableWord (nbits w : Nat) : Option Instr :=
  match decode Config.lutReference (tableForm nbits w) with
  | .ok i => some i
  | .error _ => none

end Sys2Proof
end

