-- ==== Sys2Proof/Machine/Records.lean ====
section
/-! DEFINITION. Decoded messages (spec/45_field_decoders.md) and output records (spec/43_dispatcher_lut.md R124). -/

namespace Sys2Proof.Machine

/-! ## Decoded messages, one structure per decoder, fields named and ordered as the rules have them -/

/-- R145. -/
structure RadarFront where
  frontLeft : Nat
  frontLeftCenter : Nat
  frontRightCenter : Nat
  frontRight : Nat
  deriving DecidableEq, Repr

/-- The CentralState byte (R147). -/
structure Central where
  radarEnabled : Bool
  sensitivity : Bool
  alarmVolumeSwitch : Bool
  volumeLevel : Nat
  deriving DecidableEq, Repr

/-- R146. -/
structure RadarRear where
  rear0 : Nat
  rear1 : Nat
  rear2 : Nat
  rear3 : Nat
  central : Central
  deriving DecidableEq, Repr

/-- R148. -/
structure OilElectricity where
  batteryCapacity : Nat
  hybrid : Bool
  powerFlow : Six Bool
  deriving DecidableEq, Repr

/-- The mileage unit of R149. -/
inductive MileageUnit where
  | space
  | mile
  | km
  | unknown (u : Byte)
  deriving DecidableEq, Repr

/-- R149. -/
structure BasicFly where
  averageSpeed : Rat
  driverTime : Nat
  mileage : Nat
  mileageUnit : MileageUnit
  deriving DecidableEq, Repr

/-- R150. -/
structure CarDoor where
  frontRight : Bool
  frontLeft : Bool
  backRight : Bool
  backLeft : Bool
  trunk : Bool
  frontCover : Bool
  skyWindow : Nat
  deriving DecidableEq, Repr

/-- A temperature of R153. -/
inductive Temperature where
  | low
  | high
  | degF (t : Nat)
  | degC (t : Rat)
  deriving DecidableEq, Repr

/-- R151, R152, R153. -/
structure AcState where
  acSwitch : Bool
  mode : Bool
  recirculation : Bool
  auto : Bool
  dual : Bool
  maxAC : Bool
  autoDefog : Bool
  airflowDir7 : Bool
  airflowDir6 : Bool
  airflowDir5 : Bool
  fanSpeed : Nat
  frontWindowDefog : Bool
  backWindowDefog : Bool
  econ : Bool
  unitFlag : Bool
  leftSideTemperature : Temperature
  tempByte3 : Temperature
  tempByte6 : Temperature
  leftSeatHeat : Nat
  rightSeatHeat : Nat
  rearFanSpeed : Nat
  rearAirflow : RearAirflow
  deriving DecidableEq, Repr

/-- R154, R155. -/
structure Tpms where
  unit : Nat
  scale : Rat
  alarmActive : Bool
  wheelAlarm : Four Nat
  wheelPressure : Four Rat
  sparePressure : Rat
  deriving DecidableEq, Repr

/-- R156. -/
structure TravelOil where
  unit : TravelUnit
  consumption : Six Rat
  deriving DecidableEq, Repr

/-- A command code and its label (R159). -/
structure Command where
  code : Byte
  label : Option Label
  deriving DecidableEq, Repr

/-- DecodedMessage: the tagged union of R12, one variant per decoder, CarInfo with its modes (R65, R158). -/
inductive Message where
  | radarFront (m : RadarFront)
  | radarRear (m : RadarRear)
  | oilElectricity (m : OilElectricity)
  | basicFly (m : BasicFly)
  | carDoor (m : CarDoor)
  | acState (m : AcState)
  | tpms (m : Tpms)
  | travelOil (m : TravelOil)
  | swcAngle (angle : Int)
  | carInfoMode1 (fields : FieldMap)
  | carInfoMode2 (fields : FieldMap)
  | carInfoMode3 (fields : FieldMap)
  | carInfoUnknownMode (mode : Byte)
  | dataRequest (m : Command)
  | acSetting (m : Command)
  deriving DecidableEq, Repr

/-- How a decode or a read ends without a value (R109, R121, R140). -/
inductive DecodeError where
  | shortPayload
  | malformed
  deriving DecidableEq, Repr

/-! ## Output records (R124) -/

/-- The `status` field of a frame record (R124); its numeric codes are R181's, `Verdict.code`. -/
inductive Status where
  | decoded
  | noDecoder
  | unknownFunctionId
  | shortPayload
  deriving DecidableEq, Repr

/-- FrameRec (R124); `name := none` is the marker UNKNOWN. -/
structure FrameRec where
  start : Byte
  fid : Byte
  name : Option NameTag
  n : Byte
  payload : List Byte
  cks : Byte
  cksOk : Bool
  status : Status
  msg : Option Message
  deriving DecidableEq, Repr

/-- The two record shapes (R124). -/
inductive Record where
  | frame (r : FrameRec)
  | malformed (raw : Frame)
  deriving DecidableEq, Repr

end Sys2Proof.Machine
end

