-- ==== Sys2Proof/Machine/State.lean ====
section
/-! DEFINITION. The state of FSYNC (spec/10_state.md), its reset value (spec/70_reset_and_hazards.md R200) and the
reasons a step can stop. -/

namespace Sys2Proof.Machine

/-- The values of R27, which live only inside one step; a field is `none` while its value does not exist. A stage of the
table that is executed by itself leaves its value here (entry 7); `step` drops them all at its end. -/
structure Work where
  /-- F, the candidate frame that has passed the length gate (R27, R90). -/
  frame : Option Frame
  /-- start (R91). -/
  start : Option Byte
  /-- fid (R91). -/
  fid : Option Byte
  /-- N (R91). -/
  n : Option Byte
  /-- payload (R93). -/
  payload : Option (List Byte)
  /-- cks_rx (R94). -/
  cksRx : Option Byte
  /-- cks_calc (R95). -/
  cksCalc : Option Byte
  /-- cks_ok (R96). -/
  cksOk : Option Bool
  /-- look (R116). -/
  look : Option Look
  /-- drop (R131). -/
  drop : Option Bool
  /-- The decoder the payload is routed to, and the payload (R120). -/
  routed : Option (Decoder × List Byte)
  /-- result (R121). -/
  result : Option (Except DecodeError Message)
  /-- The output of the Integer Field Reader (R105). -/
  rd : Option (Except DecodeError Nat)
  deriving DecidableEq, Repr

/-- No value exists: between steps (R27). -/
def Work.none : Work where
  frame := Option.none
  start := Option.none
  fid := Option.none
  n := Option.none
  payload := Option.none
  cksRx := Option.none
  cksCalc := Option.none
  cksOk := Option.none
  look := Option.none
  drop := Option.none
  routed := Option.none
  result := Option.none
  rd := Option.none

/-- The machine. BUF and LAST are the state that survives an event (R20), OUT the output sequence (R31); the LUT is the
read-only memory of R40 and `params` the build parameters of R7, neither ever written; `work` is R27's; `input` holds the
stimuli the environment is yet to deliver (entry 1). -/
structure State where
  buf : List Byte
  last : Option NameTag
  out : List Record
  lut : Lut
  params : Params
  work : Work
  input : List Stimulus
  deriving DecidableEq, Repr

/-- The machine after reset: `BUF = []`, `LAST = none`, `OUT = []` (R33, R200). The LUT and the parameters are the
spec's reference values (entries 3, 5), no stimulus waits (entry 1). -/
def State.reset : State where
  buf := []
  last := none
  out := []
  lut := Config.lutReference
  params := Config.defaults
  work := Work.none
  input := []

/-- Why the machine stops with a fault. -/
inductive Fault where
  /-- Raised by APPEND alone, in a build with a finite BUF_CAP whose buffer is full (R24, R81, R190: "a fault that is
  never cleared"). Safe: the spec gives no effect, and no claim about a later state can be proved. -/
  | bufferOverflow
  deriving DecidableEq, Repr

/-- Why an operation has no meaning. -/
inductive Refusal where
  /-- An operation of the table that has no meaning yet. No arm of `exec` answers it. Safe. -/
  | notModelled (mnemonic : String)
  deriving DecidableEq, Repr

end Sys2Proof.Machine
end

