-- ==== Sys2Proof/Machine/Operands.lean ====
section
/-! DEFINITION. How operands are read: bits and fields of a byte (spec/00_scope.md R8), slices and single bytes of a
window (R9, R10), the fields of a candidate frame (spec/41_checksum_validator.md R91 to R94), and the Integer Field
Reader (spec/42_integer_field_reader.md). -/

namespace Sys2Proof.Machine

/-- `b[i]` as a boolean (R8). -/
def bitOf (b : Byte) (i : Nat) : Bool := b.getLsbD i

/-- `b[hi:lo]`, unsigned (R8). -/
def fieldOf (b : Byte) (hi lo : Nat) : Nat := (b.toNat >>> lo) &&& (2 ^ (hi - lo + 1) - 1)

/-- `s[a .. b)`, clipped to the sequence (R9). -/
def slice (s : List Byte) (a b : Nat) : List Byte := (s.take b).drop a

/-- `w[i]` by direct index; outside the window it raises MalformedFrame (R10). -/
def byteAt (w : List Byte) (i : Nat) : Except DecodeError Byte :=
  match w[i]? with
  | some b => .ok b
  | none => .error .malformed

/-- `Q(n, d)`, the exact rational (R10, R143). -/
def quantity (n : Int) (d : Nat) : Rat := mkRat n d

/-! ## The fields of a candidate frame that has passed the length gate -/

/-- start, byte 0 (R91). -/
def frameStart (f : Frame) : Byte := f.getD 0 0#8

/-- N, byte 2 (R91). -/
def frameN (f : Frame) : Byte := f.getD 2 0#8

/-- The payload, `F[3 .. 3+N)` clipped at the end of the frame (R93). -/
def framePayload (f : Frame) : List Byte := slice f 3 (3 + (frameN f).toNat)

/-! ## The Integer Field Reader -/

/-- The sums of R106 and R107: byte i contributes `w[off+i] << (8*i)` little-endian and
`w[off+i] << (8*(cnt-1-i))` big-endian. Used only where every `off + i` lies inside the window. -/
def rdSum (w : List Byte) (off cnt : Nat) (e : Endian) : Nat :=
  ((List.range cnt).map fun i =>
    (w.getD (off + i) 0#8).toNat <<< (match e with
      | .le => 8 * i
      | .be => 8 * (cnt - 1 - i))).sum

/-- `RD(w, off, cnt, e)` (R105): the guard of R108 first, then the range test of R109, then the sum. -/
def rd (w : List Byte) (off cnt : Nat) (e : Endian) : Except DecodeError Nat :=
  if off + 1 ≥ w.length then .ok 0
  else if off + cnt > w.length then .error .malformed
  else .ok (rdSum w off cnt e)

end Sys2Proof.Machine
end

