-- ==== Sys2Proof/Machine/Decoders.lean ====
section
/-! DEFINITION. The twelve Field Decoders (spec/45_field_decoders.md): each a pure function of the payload (R160), called
by `decodePayload` once the length precondition of R140 has passed. -/

namespace Sys2Proof.Machine

/-! ## Radar (R144 to R147) -/

/-- LVL (R144). -/
def lvl (c : Byte) : Nat :=
  if c = 1#8 then 1 else if c = 2#8 then 4 else if c = 3#8 then 7 else if c = 4#8 then 10 else 0

/-- RADAR_FRONT (R145). -/
def decodeRadarFront (p : List Byte) : Except DecodeError Message := do
  let c0 ← byteAt p 0
  let c1 ← byteAt p 1
  let c2 ← byteAt p 2
  let c3 ← byteAt p 3
  return .radarFront
    { frontLeft := lvl c0, frontLeftCenter := lvl c1, frontRightCenter := lvl c2, frontRight := lvl c3 }

/-- CENTRAL (R147): bits 5 and 3 are not used. -/
def centralOf (c : Byte) : Central where
  radarEnabled := bitOf c 7
  sensitivity := bitOf c 6
  alarmVolumeSwitch := bitOf c 4
  volumeLevel := fieldOf c 2 0

/-- RADAR_REAR (R146). -/
def decodeRadarRear (p : List Byte) : Except DecodeError Message := do
  let c0 ← byteAt p 0
  let c1 ← byteAt p 1
  let c2 ← byteAt p 2
  let c3 ← byteAt p 3
  let c4 ← byteAt p 4
  return .radarRear
    { rear0 := lvl c0, rear1 := lvl c1, rear2 := lvl c2, rear3 := lvl c3, central := centralOf c4 }

/-! ## OilElectricityInfo (R148) -/

/-- OIL_ELEC (R148). -/
def decodeOilElec (p : List Byte) : Except DecodeError Message := do
  let b0 ← byteAt p 0
  let b1 ← byteAt p 1
  return .oilElectricity
    { batteryCapacity := fieldOf b0 2 0
      hybrid := bitOf b0 7
      powerFlow := ⟨bitOf b1 0, bitOf b1 1, bitOf b1 2, bitOf b1 3, bitOf b1 4, bitOf b1 5⟩ }

/-! ## BasicFlyInfo (R149) -/

/-- MUNIT (R149). -/
def mileageUnitOf (pr : Params) (u : Byte) : MileageUnit :=
  if u = pr.bfKeySpace then .space
  else if u = pr.bfKeyMile then .mile
  else if u = pr.bfKeyKm then .km
  else .unknown u

/-- BASIC_FLY (R149), at the offsets of the parameters. -/
def decodeBasicFly (pr : Params) (p : List Byte) : Except DecodeError Message := do
  let speed ← rd p pr.bfOffSpeed 2 .be
  let time ← rd p pr.bfOffTime 2 .be
  let mileage ← rd p pr.bfOffMileage 2 .be
  let u ← byteAt p pr.bfOffUnit
  return .basicFly
    { averageSpeed := quantity speed 10
      driverTime := time
      mileage := mileage
      mileageUnit := mileageUnitOf pr u }

/-! ## CarDoorInfo (R150) -/

/-- The bit of a listed flag: its place in a descending reading of the list, or in an ascending one (FLAG_ORDER). -/
def flagBit (o : FlagOrder) (desc asc : Nat) : Nat :=
  match o with
  | .descending => desc
  | .ascending => asc

/-- CAR_DOOR (R150). -/
def decodeCarDoor (pr : Params) (p : List Byte) : Except DecodeError Message := do
  let b0 ← byteAt p 0
  let b1 ← byteAt p 1
  return .carDoor
    { frontRight := bitOf b0 (flagBit pr.flagOrder 7 3)
      frontLeft := bitOf b0 (flagBit pr.flagOrder 6 4)
      backRight := bitOf b0 (flagBit pr.flagOrder 5 5)
      backLeft := bitOf b0 (flagBit pr.flagOrder 4 6)
      trunk := bitOf b0 (flagBit pr.flagOrder 3 7)
      frontCover := bitOf b1 7
      skyWindow := fieldOf b1 6 5 }

/-! ## ACState (R151 to R153) -/

/-- TEMP (R153). -/
def tempOf (r : Byte) (fahrenheit : Bool) : Temperature :=
  if fahrenheit then
    if r.toNat = 0 then .low
    else if r.toNat = 255 then .high
    else .degF r.toNat
  else
    if r.toNat > 31 then .degC (quantity (2 * r.toNat) 1)
    else if r.toNat = 0 then .low
    else if r.toNat = 31 then .high
    else .degC (quantity (r.toNat + 35) 2)

/-- AC_STATE (R151, R152, R153). Bit 6 of byte 4 is the back-window defog flag and the Fahrenheit flag. -/
def decodeAcState (pr : Params) (p : List Byte) : Except DecodeError Message := do
  let b0 ← byteAt p 0
  let b1 ← byteAt p 1
  let b2 ← byteAt p 2
  let b3 ← byteAt p 3
  let b4 ← byteAt p 4
  let b5 ← byteAt p 5
  let b6 ← byteAt p 6
  let b7 ← byteAt p 7
  return .acState
    { acSwitch := bitOf b0 (flagBit pr.flagOrder 7 0)
      mode := bitOf b0 (flagBit pr.flagOrder 6 1)
      recirculation := bitOf b0 (flagBit pr.flagOrder 5 2)
      auto := bitOf b0 (flagBit pr.flagOrder 3 3)
      dual := bitOf b0 (flagBit pr.flagOrder 2 5)
      maxAC := bitOf b0 (flagBit pr.flagOrder 1 6)
      autoDefog := bitOf b0 (flagBit pr.flagOrder 0 7)
      airflowDir7 := bitOf b1 7
      airflowDir6 := bitOf b1 6
      airflowDir5 := bitOf b1 5
      fanSpeed := fieldOf b1 3 0
      frontWindowDefog := bitOf b4 7
      backWindowDefog := bitOf b4 6
      econ := bitOf b4 4
      unitFlag := bitOf b4 6
      leftSideTemperature := tempOf b2 (bitOf b4 6)
      tempByte3 := tempOf b3 (bitOf b4 6)
      tempByte6 := tempOf b6 (bitOf b4 6)
      leftSeatHeat := fieldOf b5 1 0
      rightSeatHeat := fieldOf b5 3 2
      rearFanSpeed := fieldOf b7 3 0
      rearAirflow := Config.acB7Layout (BitVec.ofNat 4 (fieldOf b7 7 4)) }

/-! ## TPMSInfo (R154, R155) -/

/-- Unit and scale by `p[0][1:0]` (R154); on `10` the scale is 1, and `11` raises MalformedFrame. -/
def tpmsUnitScale (b0 : Byte) : Except DecodeError (Nat × Rat) :=
  match fieldOf b0 1 0 with
  | 0 => .ok (2, quantity 1 10)
  | 1 => .ok (1, quantity 1 1)
  | 2 => .ok (Config.tpmsUnit10, quantity 1 1)
  | _ => .error .malformed

/-- PRESS (R155): -1 for the sentinels 0 and 255, else `r * scale`. -/
def pressOf (r : Byte) (scale : Rat) : Rat :=
  if r.toNat = 0 ∨ r.toNat = 255 then quantity (-1) 1
  else quantity (r.toNat * scale.num) scale.den

/-- TPMS (R154, R155). -/
def decodeTpms (p : List Byte) : Except DecodeError Message := do
  let b0 ← byteAt p 0
  let b1 ← byteAt p 1
  let b2 ← byteAt p 2
  let b3 ← byteAt p 3
  let b4 ← byteAt p 4
  let b5 ← byteAt p 5
  let us ← tpmsUnitScale b0
  let alarm := if bitOf b0 6 then 3 else 0
  return .tpms
    { unit := us.1
      scale := us.2
      alarmActive := bitOf b0 6
      wheelAlarm := ⟨alarm, alarm, alarm, alarm⟩
      wheelPressure := ⟨pressOf b1 us.2, pressOf b2 us.2, pressOf b3 us.2, pressOf b4 us.2⟩
      sparePressure := pressOf b5 us.2 }

/-! ## TravelOilInfo (R156) -/

/-- The seven rows of the unit table (R156), in the order the source lists them. -/
def travelRows : List (Fin 7 × TravelUnit) :=
  [(0, ⟨.mpg, some 60⟩), (1, ⟨.kmh, some 30⟩), (2, ⟨.l100km, some 30⟩),
   (3, ⟨.ev 0, none⟩), (4, ⟨.ev 1, none⟩), (5, ⟨.ev 2, none⟩), (6, ⟨.ev 3, none⟩)]

/-- TUNIT (R156): the row whose key is the code, and TO_UNIT_DEFAULT outside the table (entry 12). -/
def travelUnitOf (u : Byte) : TravelUnit :=
  match travelRows.find? (fun r => Config.toUnitKey r.1 == u) with
  | some r => r.2
  | none => Config.toUnitDefault u

/-- TRAVEL_OIL (R156), at the offsets of the parameters. -/
def decodeTravelOil (pr : Params) (p : List Byte) : Except DecodeError Message := do
  let u ← byteAt p 0
  let c0 ← rd p pr.toOff.k0 2 .be
  let c1 ← rd p pr.toOff.k1 2 .be
  let c2 ← rd p pr.toOff.k2 2 .be
  let c3 ← rd p pr.toOff.k3 2 .be
  let c4 ← rd p pr.toOff.k4 2 .be
  let c5 ← rd p pr.toOff.k5 2 .be
  return .travelOil
    { unit := travelUnitOf u
      consumption := ⟨quantity c0 10, quantity c1 10, quantity c2 10,
        quantity c3 10, quantity c4 10, quantity c5 10⟩ }

/-! ## SWCAngle (R157) -/

/-- The pseudocode of R157, literally; its sign test is constant 0. -/
def swcAngleOf (b0 b1 : Byte) : Int :=
  let value : Nat := b0.toNat + b1.toNat * 256
  let sign : Nat := ((b1.toNat * 256) >>> 3) &&& 1
  if sign = 1 then ((value ^^^ 0xFFF) + 1 : Nat) else -(value : Int)

/-- SWC_ANGLE (R157). -/
def decodeSwcAngle (p : List Byte) : Except DecodeError Message := do
  let b0 ← byteAt p 0
  let b1 ← byteAt p 1
  return .swcAngle (swcAngleOf b0 b1)

/-! ## CarInfo (R158) -/

/-- The divisor of a mode 2 scale. -/
def scaleDen : CiScale → Nat
  | .one => 1
  | .tenth => 10
  | .hundredth => 100

/-- One integer of mode 2: of several bytes through RD (R158), of a single byte by direct index, not through the reader
(R111, D9 (d)). -/
def readCiField (p : List Byte) (fd : CiField) : Except DecodeError Nat :=
  if fd.cnt = 1 then (byteAt p fd.off).map BitVec.toNat else rd p fd.off fd.cnt .be

/-- The big-endian integers of mode 2, in order (R158). -/
def readCiFields (p : List Byte) : List CiField → Except DecodeError FieldMap
  | [] => .ok []
  | fd :: rest => do
    let v ← readCiField p fd
    let more ← readCiFields p rest
    return (fd.name, .number (quantity v (scaleDen fd.scale))) :: more

/-- Every byte that the integers of mode 2 read lies inside the payload: the minimum length of a layout, one more than the
highest index it reads (R141). -/
def ciFits (p : List Byte) (fds : List CiField) : Bool := fds.all fun fd => decide (fd.off + fd.cnt ≤ p.length)

/-- Mode 2 under the answer of its layout (R158): ShortPayload where the layout says so or a read would leave the payload
(R140), so that no read meets the range rule of R109; else the integers. -/
def decodeCiMode2 (p : List Byte) : Option (List CiField) → Except DecodeError Message
  | some fds => if ciFits p fds then (readCiFields p fds).map .carInfoMode2 else .error .shortPayload
  | none => .error .shortPayload

/-- A layout that answers `none` answers ShortPayload (R158). -/
def orShort (wrap : FieldMap → Message) : Option FieldMap → Except DecodeError Message
  | some m => .ok (wrap m)
  | none => .error .shortPayload

/-- CAR_INFO (R158): the mode byte, then that mode's own minimum length and layout; another mode is a successful
decode. -/
def decodeCarInfo (p : List Byte) : Except DecodeError Message := do
  let mode ← byteAt p 0
  if mode = 1#8 then
    if p.length < Config.mlCarInfo mode then .error .shortPayload
    else orShort .carInfoMode1 (Config.ciMode1Layout p)
  else if mode = 2#8 then
    if p.length < Config.mlCarInfo mode then .error .shortPayload
    else decodeCiMode2 p (Config.ciMode2Layout p)
  else if mode = 3#8 then
    if p.length < Config.mlCarInfo mode then .error .shortPayload
    else orShort .carInfoMode3 (Config.ciMode3Layout p)
  else .ok (.carInfoUnknownMode mode)

/-! ## DataRequest and ACSetting (R159) -/

/-- DATA_REQUEST (R159). -/
def decodeDataRequest (p : List Byte) : Except DecodeError Message := do
  let code ← byteAt p 0
  return .dataRequest { code := code, label := Config.drLabel code }

/-- AC_SETTING (R159). -/
def decodeAcSetting (p : List Byte) : Except DecodeError Message := do
  let code ← byteAt p 0
  return .acSetting { code := code, label := Config.asLabel code }

/-! ## DECODE (R121, R140, R141) -/

/-- MINLEN (R141). -/
def minLen (pr : Params) : Decoder → Nat
  | .radarFront => 4
  | .radarRear => 5
  | .oilElec => 2
  | .swcAngle => 2
  | .basicFly => pr.mlBasicFly
  | .travelOil => pr.mlTravelOil
  | .carDoor => 2
  | .tpms => 6
  | .acState => 8
  | .carInfo => 1
  | .dataRequest => 1
  | .acSetting => 1

/-- The decoder's own rule. -/
def decodeBody (pr : Params) (d : Decoder) (p : List Byte) : Except DecodeError Message :=
  match d with
  | .radarFront => decodeRadarFront p
  | .radarRear => decodeRadarRear p
  | .oilElec => decodeOilElec p
  | .swcAngle => decodeSwcAngle p
  | .basicFly => decodeBasicFly pr p
  | .travelOil => decodeTravelOil pr p
  | .carDoor => decodeCarDoor pr p
  | .tpms => decodeTpms p
  | .acState => decodeAcState pr p
  | .carInfo => decodeCarInfo p
  | .dataRequest => decodeDataRequest p
  | .acSetting => decodeAcSetting p

/-- DECODE(dec, payload) (R121): the length precondition on the payload actually sliced, then the decoder's rule. -/
def decodePayload (pr : Params) (d : Decoder) (p : List Byte) : Except DecodeError Message :=
  if p.length < minLen pr d then .error .shortPayload else decodeBody pr d p

end Sys2Proof.Machine
end

