-- ==== Sys2Proof/Machine/Flags.lean ====
section
/-! DEFINITION. The one flag, `cks_ok` (spec/10_state.md R25), and the checksum it comes from
(spec/41_checksum_validator.md R94 to R96). -/

namespace Sys2Proof.Machine

/-- CKS_RX: the final byte of the frame, whatever N says (R94). -/
def cksRx (f : Frame) : Byte := f.getLastD 0#8

/-- CKS_CALC: an 8-bit accumulator over bytes 1 .. last-1, then every bit inverted (R95). -/
def cksCalc (f : Frame) : Byte :=
  (slice f 1 (f.length - 1)).foldl (fun acc b => acc + b) 0#8 ^^^ Config.cksInv

/-- CKS_COMPARE (R96). -/
def cksOk (f : Frame) : Bool := cksCalc f == cksRx f

end Sys2Proof.Machine
end

