-- ==== Sys2Proof/WellFormed.lean ====
section
/-! DEFINITION. When an operation is one the encodings admit, when a LUT is one the spec allows (spec/30_encoding.md R66
to R70), and when the layout parameters are consistent (spec/45_field_decoders.md R141, spec/60_exceptions.md R190). -/

namespace Sys2Proof

/-- The four head-unit request ids (R68). -/
def isRequestFid (fid : Byte) : Bool :=
  fid == 0x82#8 || fid == 0x90#8 || fid == 0xC0#8 || fid == 0xC8#8

/-- A candidate frame past the length gate (R90). -/
def longEnough (f : Frame) : Bool := 4 ≤ f.length

/-- A frame of a request row: its id, its LUT entry, and a decoder that has no row of its own at that id. -/
def requestWf (lut : Lut) (fid : Byte) (name : NameTag) (dec : Option Decoder) (f : Frame) : Bool :=
  longEnough f && frameFid f == fid && lookLut lut fid == .hit name dec
    && dec != some .dataRequest && dec != some .acSetting

/-- A frame that the LUT routes to `dec` under an id that no other row fixes. -/
def openWf (lut : Lut) (name : NameTag) (dec : Decoder) (f : Frame) : Bool :=
  longEnough f && lookLut lut (frameFid f) == .hit name (some dec)
    && frameFid f != 0x2E#8 && !isRequestFid (frameFid f)

/-- A frame of a command decoder (R159): under any id but 46. -/
def commandWf (lut : Lut) (name : NameTag) (dec : Decoder) (f : Frame) : Bool :=
  longEnough f && lookLut lut (frameFid f) == .hit name (some dec) && frameFid f != 0x2E#8

/-- The operands an operation's encoding admits, under a LUT. -/
def WellFormed (lut : Lut) : Instr → Bool
  | .delim => true
  | .append b => b != Config.delim
  | .noData => true
  | .checkMin f => f != []
  | .parseHeader f => longEnough f
  | .slicePayload f => longEnough f
  | .cksRx f => longEnough f
  | .cksCalc f => longEnough f
  | .cksCompare f => longEnough f
  | .lookup f => longEnough f
  | .suppressTest f => longEnough f
  | .suppressUpdate f => longEnough f
  | .dispatch f => longEnough f
  | .decode f => longEnough f
  | .processFrame f => f != []
  | .radarFront name f => frameFid f == 0x1D#8 && openWf lut name .radarFront f
  | .tpms name f => frameFid f == 0x25#8 && openWf lut name .tpms f
  | .req130 name dec f => requestWf lut 0x82#8 name dec f
  | .req144 name dec f => requestWf lut 0x90#8 name dec f
  | .req192 name dec f => requestWf lut 0xC0#8 name dec f
  | .req200 name dec f => requestWf lut 0xC8#8 name dec f
  | .radarRear name f => openWf lut name .radarRear f
  | .oilElec name f => openWf lut name .oilElec f
  | .basicFly name f => openWf lut name .basicFly f
  | .carDoor name f => openWf lut name .carDoor f
  | .acState name f => openWf lut name .acState f
  | .travelOil name f => openWf lut name .travelOil f
  | .swcAngle name f => openWf lut name .swcAngle f
  | .carInfo name f => openWf lut name .carInfo f
  | .dataRequest name f => commandWf lut name .dataRequest f
  | .acSetting name f => commandWf lut name .acSetting f
  | .unknownFid f => longEnough f && lookLut lut (frameFid f) == .miss && frameFid f != 0x2E#8
  | .fid46 look f => longEnough f && frameFid f == 0x2E#8 && look == lookLut lut 0x2E#8
  | .rdle _ _ _ => true
  | .rdbe _ _ _ => true
  | .reset => true

/-! ## The open parameters -/

/-- The canonical form of a LUT: ids strictly rising, so that equal tables are equal lists. -/
def lutSorted : Lut → Bool
  | [] => true
  | [_] => true
  | r :: r' :: rest => decide (r.fid.toNat < r'.fid.toNat) && lutSorted (r' :: rest)

/-- The ids that may hit: 29..65 and the four request ids (R69). -/
def mayHit (fid : Byte) : Bool :=
  (decide (29 ≤ fid.toNat) && decide (fid.toNat ≤ 65)) || isRequestFid fid

/-- Whether an id has a row. -/
def hits (lut : Lut) (fid : Byte) : Bool := lookLut lut fid != .miss

/-- Whether an id's row routes to a decoder. -/
def routesTo (lut : Lut) (fid : Byte) (d : Decoder) : Bool :=
  match lookLut lut fid with
  | .hit _ dec => dec == some d
  | .miss => false

/-- What R66 to R69 fix of the LUT. -/
def lutConforms (lut : Lut) : Bool :=
  routesTo lut 0x1D#8 .radarFront && routesTo lut 0x25#8 .tpms
    && hits lut 0x82#8 && hits lut 0x90#8 && hits lut 0xC0#8 && hits lut 0xC8#8
    && lut.all fun r => mayHit r.fid

/-- A layout is consistent when every read lies inside the shortest payload its decoder accepts (R109, R141, R208), the
unit keys are distinct (R149), and a finite buffer holds the longest well-formed frame (R190). -/
def paramsConform (p : Params) : Bool :=
  decide (p.bfOffSpeed + 2 ≤ p.mlBasicFly) && decide (p.bfOffTime + 2 ≤ p.mlBasicFly)
    && decide (p.bfOffMileage + 2 ≤ p.mlBasicFly) && decide (p.bfOffUnit + 1 ≤ p.mlBasicFly)
    && p.bfKeySpace != p.bfKeyMile && p.bfKeySpace != p.bfKeyKm && p.bfKeyMile != p.bfKeyKm
    && decide (p.toOff.k0 + 2 ≤ p.mlTravelOil) && decide (p.toOff.k1 + 2 ≤ p.mlTravelOil)
    && decide (p.toOff.k2 + 2 ≤ p.mlTravelOil) && decide (p.toOff.k3 + 2 ≤ p.mlTravelOil)
    && decide (p.toOff.k4 + 2 ≤ p.mlTravelOil) && decide (p.toOff.k5 + 2 ≤ p.mlTravelOil)
    && decide (1 ≤ p.mlTravelOil)
    && match p.bufCap with
       | none => true
       | some c => decide (Config.longestFrame ≤ c)

end Sys2Proof
end

