-- ==== Sys2Proof/Machine/Ops.lean ====
section
/-! DEFINITION. The named operations over the state: the buffer, the output, the register LAST, the outcome of a
candidate frame and its one entry operation (spec/60_exceptions.md R180 to R189), the fetch of a stimulus. -/

namespace Sys2Proof.Machine

/-! ## Memory -/

/-- The canonical form of the machine's memory: the LUT's ids strictly rise (BUF is a list of bytes, index 0 first,
R41, so it has one form only). -/
def Memory.wf (s : State) : Bool := lutSorted s.lut

/-- `BUF <- BUF ++ [b]`, the one memory write by append (R10, R81). -/
def State.appendByte (s : State) (b : Byte) : State := { s with buf := s.buf ++ [b] }

/-- `BUF <- [0x2E]` (R82). -/
def State.restartBuf (s : State) : State := { s with buf := [Config.delim] }

/-- Whether APPEND finds BUF full, in a finite build only (R24, R190). -/
def State.bufFull (s : State) : Bool :=
  match s.params.bufCap with
  | none => false
  | some cap => decide (cap ≤ s.buf.length)

/-! ## Registers and output -/

/-- `LAST <- some(name)` (R132). -/
def State.setLast (s : State) (name : NameTag) : State := { s with last := some name }

/-- `emit r` (R10, R31). -/
def State.emit (s : State) (r : Record) : State := { s with out := s.out ++ [r] }

/-- Writes a per-frame value (R27). -/
def State.setWork (s : State) (w : Work) : State := { s with work := w }

/-- The end of a step: the per-frame values are dropped (R27). -/
def State.dropWork (s : State) : State := { s with work := Work.none }

/-! ## The outcome of a candidate frame (R180) -/

/-- The outcomes of R180, MalformedFrame split by where it is raised, because LAST differs (R181, R184). -/
inductive Verdict where
  | decoded (name : NameTag) (m : Message)
  | noDecoder (name : NameTag)
  | unknown
  | short (name : NameTag)
  | malformedGate
  | malformedDecode (name : NameTag)
  | suppressed
  deriving DecidableEq, Repr

/-- Which outcome a frame has, in the priority of R187, the order of the lines of R117. -/
def frameVerdict (pr : Params) (last : Option NameTag) (look : Look) (f : Frame) : Verdict :=
  if f.length < Config.frameMin then .malformedGate
  else
    match look with
    | .miss => .unknown
    | .hit name dec =>
      if last = some name then .suppressed
      else
        match dec with
        | none => .noDecoder name
        | some d =>
          match decodePayload pr d (framePayload f) with
          | .ok m => .decoded name m
          | .error .shortPayload => .short name
          | .error .malformed => .malformedDecode name

/-- The status code of R181 for the outcome of a frame. -/
def Verdict.code : Verdict → Nat
  | .decoded _ _ => 0
  | .noDecoder _ => 1
  | .unknown => 2
  | .short _ => 3
  | .malformedGate => 4
  | .malformedDecode _ => 4
  | .suppressed => 5

/-- The status code of R181 for the `status` field of a frame record. -/
def Status.code : Status → Nat
  | .decoded => 0
  | .noDecoder => 1
  | .unknownFunctionId => 2
  | .shortPayload => 3

/-- The status code of R181 that a record's shape and `status` field stand for. -/
def Record.code : Record → Nat
  | .frame r => r.status.code
  | .malformed _ => 4

/-- The status code of R181 for a stop: 6, BufferOverflow, which belongs to a byte and not to a frame (R180, R190). -/
def Fault.code : Fault → Nat
  | .bufferOverflow => 6

/-- The frame record of R124, with the fields of R91 to R96. -/
def frameRec (f : Frame) (name : Option NameTag) (status : Status) (msg : Option Message) : FrameRec where
  start := frameStart f
  fid := frameFid f
  name := name
  n := frameN f
  payload := framePayload f
  cks := cksRx f
  cksOk := cksOk f
  status := status
  msg := msg

/-- The record an outcome emits, none for Suppressed (R181). -/
def Verdict.record (v : Verdict) (f : Frame) : Option Record :=
  match v with
  | .decoded name m => some (.frame (frameRec f (some name) .decoded (some m)))
  | .noDecoder name => some (.frame (frameRec f (some name) .noDecoder none))
  | .unknown => some (.frame (frameRec f none .unknownFunctionId none))
  | .short name => some (.frame (frameRec f (some name) .shortPayload none))
  | .malformedGate => some (.malformed f)
  | .malformedDecode _ => some (.malformed f)
  | .suppressed => none

/-- LAST after an outcome (R181): written for every identified frame that was not suppressed, before its decoder runs
and never undone (R123, R132). -/
def Verdict.lastAfter (v : Verdict) (last : Option NameTag) : Option NameTag :=
  match v with
  | .decoded name _ => some name
  | .noDecoder name => some name
  | .unknown => last
  | .short name => some name
  | .malformedGate => last
  | .malformedDecode name => some name
  | .suppressed => last

/-- THE ENTRY of an outcome (R188): one record to OUT, none for Suppressed, and LAST as R181 says; nothing else. There
is no return operation: the step ends (R189). -/
def State.endFrame (s : State) (v : Verdict) (f : Frame) : State :=
  { s with last := v.lastAfter s.last, out := s.out ++ (v.record f).toList }

/-- `raise MalformedFrame(F)` before anything else is known of the frame (R90, R184). -/
def State.raiseMalformed (s : State) (f : Frame) : State := s.endFrame .malformedGate f

/-- The per-frame procedure of R117 with the answer of the look-up given. -/
def State.runFrame (s : State) (look : Look) (f : Frame) : State :=
  s.endFrame (frameVerdict s.params s.last look f) f

/-- PROCESS_FRAME (R117): the per-frame procedure, the look-up being the LUT's answer for byte 1 (R116). -/
def State.processFrame (s : State) (f : Frame) : State := s.runFrame (lookLut s.lut (frameFid f)) f

/-- A stage that R117 reaches only past the length gate: on a shorter candidate it raises MalformedFrame, as the gate
does (entry 8). -/
def State.staged (s : State) (f : Frame) (t : State) : State :=
  if f.length < Config.frameMin then s.raiseMalformed f else t

/-! ## Stimuli -/

/-- The next stimulus and the state without it; where none waits, the read timed out and the event is NoData (R30, R83,
entry 1). -/
def State.fetch (s : State) : Stimulus × State :=
  match s.input with
  | [] => (.noData, s)
  | x :: rest => (x, { s with input := rest })

/-- Puts a table word where the next step takes it (entry 2): a stimulus at the head of the input; a candidate frame in
BUF, with the delimiter that releases it at the head of the input. -/
def State.placeWord (s : State) (nbits w : Nat) : State :=
  match tableForm nbits w with
  | .stim x => { s with input := x :: s.input }
  | .stage _ f => { s with buf := f, input := .byte Config.delim :: s.input }
  | .candidate f => { s with buf := f, input := .byte Config.delim :: s.input }
  | .reader _ _ _ _ => s

end Sys2Proof.Machine
end

