-- ==== Sys2Proof/Machine/Functions.lean ====
section
/-! DEFINITION. The operations a function id selects (spec/30_encoding.md R65 to R72). Each is a whole candidate frame
(spec/00_scope.md R5): it passes the length gate, the Repeat Suppressor and, where it is routed to one, its decoder, and
ends in one outcome of spec/60_exceptions.md R180. -/

namespace Sys2Proof.Machine

/-- RADAR_FRONT (R66, R145). -/
def execRadarFront (name : NameTag) (f : Frame) (s : State) : Host.Outcome State Fault Refusal :=
  .next (s.runFrame (.hit name (some .radarFront)) f)

/-- TPMS (R67, R154, R155). -/
def execTpms (name : NameTag) (f : Frame) (s : State) : Host.Outcome State Fault Refusal :=
  .next (s.runFrame (.hit name (some .tpms)) f)

/-- REQ_130 (R68): the LUT hits, with the decoder or none that it holds. -/
def execReq130 (name : NameTag) (dec : Option Decoder) (f : Frame) (s : State) : Host.Outcome State Fault Refusal :=
  .next (s.runFrame (.hit name dec) f)

/-- REQ_144 (R68). -/
def execReq144 (name : NameTag) (dec : Option Decoder) (f : Frame) (s : State) : Host.Outcome State Fault Refusal :=
  .next (s.runFrame (.hit name dec) f)

/-- REQ_192 (R68). -/
def execReq192 (name : NameTag) (dec : Option Decoder) (f : Frame) (s : State) : Host.Outcome State Fault Refusal :=
  .next (s.runFrame (.hit name dec) f)

/-- REQ_200 (R68). -/
def execReq200 (name : NameTag) (dec : Option Decoder) (f : Frame) (s : State) : Host.Outcome State Fault Refusal :=
  .next (s.runFrame (.hit name dec) f)

/-- RADAR_REAR (R146, R147). -/
def execRadarRear (name : NameTag) (f : Frame) (s : State) : Host.Outcome State Fault Refusal :=
  .next (s.runFrame (.hit name (some .radarRear)) f)

/-- OIL_ELEC (R148). -/
def execOilElec (name : NameTag) (f : Frame) (s : State) : Host.Outcome State Fault Refusal :=
  .next (s.runFrame (.hit name (some .oilElec)) f)

/-- BASIC_FLY (R149). -/
def execBasicFly (name : NameTag) (f : Frame) (s : State) : Host.Outcome State Fault Refusal :=
  .next (s.runFrame (.hit name (some .basicFly)) f)

/-- CAR_DOOR (R150). -/
def execCarDoor (name : NameTag) (f : Frame) (s : State) : Host.Outcome State Fault Refusal :=
  .next (s.runFrame (.hit name (some .carDoor)) f)

/-- AC_STATE (R151, R152, R153). -/
def execAcState (name : NameTag) (f : Frame) (s : State) : Host.Outcome State Fault Refusal :=
  .next (s.runFrame (.hit name (some .acState)) f)

/-- TRAVEL_OIL (R156). -/
def execTravelOil (name : NameTag) (f : Frame) (s : State) : Host.Outcome State Fault Refusal :=
  .next (s.runFrame (.hit name (some .travelOil)) f)

/-- SWC_ANGLE (R157). -/
def execSwcAngle (name : NameTag) (f : Frame) (s : State) : Host.Outcome State Fault Refusal :=
  .next (s.runFrame (.hit name (some .swcAngle)) f)

/-- CAR_INFO (R158). -/
def execCarInfo (name : NameTag) (f : Frame) (s : State) : Host.Outcome State Fault Refusal :=
  .next (s.runFrame (.hit name (some .carInfo)) f)

/-- DATA_REQUEST (R159). -/
def execDataRequest (name : NameTag) (f : Frame) (s : State) : Host.Outcome State Fault Refusal :=
  .next (s.runFrame (.hit name (some .dataRequest)) f)

/-- AC_SETTING (R159). -/
def execAcSetting (name : NameTag) (f : Frame) (s : State) : Host.Outcome State Fault Refusal :=
  .next (s.runFrame (.hit name (some .acSetting)) f)

/-- UNKNOWN_FID (R71, R182): reported, not decoded, LAST neither read nor written. -/
def execUnknownFid (f : Frame) (s : State) : Host.Outcome State Fault Refusal :=
  .next (s.runFrame .miss f)

/-- FID_46 (R72): whatever the LUT holds at 46; no frame that the Frame Assembler cuts after a delimiter has this id. -/
def execFid46 (look : Look) (f : Frame) (s : State) : Host.Outcome State Fault Refusal :=
  .next (s.runFrame look f)

end Sys2Proof.Machine
end

