-- ==== Sys2Proof/Machine/Reader.lean ====
section
/-! DEFINITION. The Integer Field Reader as an operation by itself (spec/42_integer_field_reader.md R105 to R109): its
output is left in `work.rd` (entry 7). -/

namespace Sys2Proof.Machine

/-- RDLE (R106). -/
def execRdle (w : List Byte) (off cnt : Nat) (s : State) : Host.Outcome State Fault Refusal :=
  .next (s.setWork { s.work with rd := some (rd w off cnt .le) })

/-- RDBE (R107). -/
def execRdbe (w : List Byte) (off cnt : Nat) (s : State) : Host.Outcome State Fault Refusal :=
  .next (s.setWork { s.work with rd := some (rd w off cnt .be) })

end Sys2Proof.Machine
end

