-- ==== Sys2Proof/Machine/Stages.lean ====
section
/-! DEFINITION. The stages of the per-frame procedure, each as the operation its rule defines
(spec/41_checksum_validator.md, spec/43_dispatcher_lut.md, spec/44_repeat_suppressor.md), and PROCESS_FRAME itself. A
stage leaves its value in `work` (entry 7). -/

namespace Sys2Proof.Machine

/-- CHECK_MIN (R90): fewer than four bytes is MalformedFrame, with the raw frame as its record. -/
def execCheckMin (f : Frame) (s : State) : Host.Outcome State Fault Refusal :=
  .next (s.staged f (s.setWork { s.work with frame := some f }))

/-- PARSE_HEADER (R91). -/
def execParseHeader (f : Frame) (s : State) : Host.Outcome State Fault Refusal :=
  .next (s.staged f (s.setWork
    { s.work with start := some (frameStart f), fid := some (frameFid f), n := some (frameN f) }))

/-- SLICE_PAYLOAD (R93). -/
def execSlicePayload (f : Frame) (s : State) : Host.Outcome State Fault Refusal :=
  .next (s.staged f (s.setWork { s.work with payload := some (framePayload f) }))

/-- CKS_RX (R94). -/
def execCksRx (f : Frame) (s : State) : Host.Outcome State Fault Refusal :=
  .next (s.staged f (s.setWork { s.work with cksRx := some (cksRx f) }))

/-- CKS_CALC (R95). -/
def execCksCalc (f : Frame) (s : State) : Host.Outcome State Fault Refusal :=
  .next (s.staged f (s.setWork { s.work with cksCalc := some (cksCalc f) }))

/-- CKS_COMPARE (R96). -/
def execCksCompare (f : Frame) (s : State) : Host.Outcome State Fault Refusal :=
  .next (s.staged f (s.setWork { s.work with cksOk := some (cksOk f) }))

/-- LOOKUP (R116). -/
def execLookup (f : Frame) (s : State) : Host.Outcome State Fault Refusal :=
  .next (s.staged f (s.setWork { s.work with look := some (lookLut s.lut (frameFid f)) }))

/-- SUPPRESS_TEST (R131): drop when LAST holds the frame's name; a frame that was not identified does not consult the
suppressor (R119, R133). -/
def execSuppressTest (f : Frame) (s : State) : Host.Outcome State Fault Refusal :=
  .next (s.staged f (match lookLut s.lut (frameFid f) with
    | .miss => s
    | .hit name _ => s.setWork { s.work with drop := some (decide (s.last = some name)) }))

/-- SUPPRESS_UPDATE (R132): LAST takes the frame's name; a frame that was not identified leaves it (R119, R133). -/
def execSuppressUpdate (f : Frame) (s : State) : Host.Outcome State Fault Refusal :=
  .next (s.staged f (match lookLut s.lut (frameFid f) with
    | .miss => s
    | .hit name _ => s.setLast name))

/-- DISPATCH (R120): the payload, and nothing else, is routed to the LUT entry's decoder, where it has one. -/
def execDispatch (f : Frame) (s : State) : Host.Outcome State Fault Refusal :=
  .next (s.staged f (match lookLut s.lut (frameFid f) with
    | .hit _ (some d) => s.setWork { s.work with routed := some (d, framePayload f) }
    | _ => s))

/-- DECODE (R121): the length precondition, then the decoder's rule, on the payload of the frame. -/
def execDecode (f : Frame) (s : State) : Host.Outcome State Fault Refusal :=
  .next (s.staged f (match lookLut s.lut (frameFid f) with
    | .hit _ (some d) => s.setWork { s.work with result := some (decodePayload s.params d (framePayload f)) }
    | _ => s))

/-- PROCESS_FRAME (R117). -/
def execProcessFrame (f : Frame) (s : State) : Host.Outcome State Fault Refusal := .next (s.processFrame f)

end Sys2Proof.Machine
end

