-- ==== Sys2Proof/Machine/Stream.lean ====
section
/-! DEFINITION. The stream-level operations of the Frame Assembler (spec/40_frame_assembler.md) and the reset action
(spec/70_reset_and_hazards.md R201). -/

namespace Sys2Proof.Machine

/-- DELIM (R82): a non-empty BUF is handed over as a candidate frame, a new buffer starts. -/
def execDelim (s : State) : Host.Outcome State Fault Refusal :=
  if s.buf.length > 0 then .next (s.restartBuf.processFrame s.buf) else .next s.restartBuf

/-- APPEND (R81); in a finite build a full buffer is the fault BufferOverflow (R190). -/
def execAppend (b : Byte) (s : State) : Host.Outcome State Fault Refusal :=
  if s.bufFull then .fault .bufferOverflow else .next (s.appendByte b)

/-- NODATA (R83): the identity on the state. -/
def execNoData (s : State) : Host.Outcome State Fault Refusal := .next s

/-- RESET (R201): the state of R200; the constants and the LUT are not affected (R200), nor the stimuli still to come. -/
def execReset (s : State) : Host.Outcome State Fault Refusal :=
  .next { State.reset with lut := s.lut, params := s.params, input := s.input }

end Sys2Proof.Machine
end

