-- ==== Sys2Proof/Machine/Dispatch.lean ====
section
/-! DEFINITION. One arm per operation of spec/opcode_table.json. -/

namespace Sys2Proof.Machine

def exec (i : Instr) (s : State) : Host.Outcome State Fault Refusal :=
  match i with
  | .delim => Sys2Proof.Machine.execDelim s
  | .append b => Sys2Proof.Machine.execAppend b s
  | .noData => Sys2Proof.Machine.execNoData s
  | .checkMin f => Sys2Proof.Machine.execCheckMin f s
  | .parseHeader f => Sys2Proof.Machine.execParseHeader f s
  | .slicePayload f => Sys2Proof.Machine.execSlicePayload f s
  | .cksRx f => Sys2Proof.Machine.execCksRx f s
  | .cksCalc f => Sys2Proof.Machine.execCksCalc f s
  | .cksCompare f => Sys2Proof.Machine.execCksCompare f s
  | .lookup f => Sys2Proof.Machine.execLookup f s
  | .suppressTest f => Sys2Proof.Machine.execSuppressTest f s
  | .suppressUpdate f => Sys2Proof.Machine.execSuppressUpdate f s
  | .dispatch f => Sys2Proof.Machine.execDispatch f s
  | .decode f => Sys2Proof.Machine.execDecode f s
  | .processFrame f => Sys2Proof.Machine.execProcessFrame f s
  | .radarFront name f => Sys2Proof.Machine.execRadarFront name f s
  | .tpms name f => Sys2Proof.Machine.execTpms name f s
  | .req130 name dec f => Sys2Proof.Machine.execReq130 name dec f s
  | .req144 name dec f => Sys2Proof.Machine.execReq144 name dec f s
  | .req192 name dec f => Sys2Proof.Machine.execReq192 name dec f s
  | .req200 name dec f => Sys2Proof.Machine.execReq200 name dec f s
  | .radarRear name f => Sys2Proof.Machine.execRadarRear name f s
  | .oilElec name f => Sys2Proof.Machine.execOilElec name f s
  | .basicFly name f => Sys2Proof.Machine.execBasicFly name f s
  | .carDoor name f => Sys2Proof.Machine.execCarDoor name f s
  | .acState name f => Sys2Proof.Machine.execAcState name f s
  | .travelOil name f => Sys2Proof.Machine.execTravelOil name f s
  | .swcAngle name f => Sys2Proof.Machine.execSwcAngle name f s
  | .carInfo name f => Sys2Proof.Machine.execCarInfo name f s
  | .dataRequest name f => Sys2Proof.Machine.execDataRequest name f s
  | .acSetting name f => Sys2Proof.Machine.execAcSetting name f s
  | .unknownFid f => Sys2Proof.Machine.execUnknownFid f s
  | .fid46 look f => Sys2Proof.Machine.execFid46 look f s
  | .rdle w off cnt => Sys2Proof.Machine.execRdle w off cnt s
  | .rdbe w off cnt => Sys2Proof.Machine.execRdbe w off cnt s
  | .reset => Sys2Proof.Machine.execReset s

end Sys2Proof.Machine
end

