-- ==== Sys2Proof/Machine/Step.lean ====
section
/-! DEFINITION. One step (spec/00_scope.md R11): fetch one stimulus, decode it, execute it, drop the per-frame values. -/

namespace Sys2Proof.Machine

/-- One step: one input event, wholly processed (R11, R30, R47), or the reset action (R201). -/
def step (s : State) : Host.Outcome State Fault Refusal :=
  match exec (decodeStimulus s.fetch.1) s.fetch.2 with
  | .next t => .next t.dropWork
  | .fault r => .fault r
  | .refused r => .refused r

/-- The state whose next step runs the operation of a table word (entry 2). -/
def State.withFetchWord (s : State) (nbits w : Nat) : State := s.placeWord nbits w

end Sys2Proof.Machine
end

