-- ==== Sys2Proof/Safety.lean ====
section
/-! DEFINITION. The terms the statements use: safe runs, the invariant every step keeps, the segmentation of a stream
(spec/40_frame_assembler.md R84), the stages of R117 run as a program. -/

namespace Sys2Proof.Machine

/-! ## Safe runs -/

/-- A run from `s` never stops: no number of steps ends in a fault or a refusal (R197, R214). -/
def Safe (s : State) : Prop := ∀ k : Nat, ∃ t : State, Host.Core.run Sys2Proof.core k s = .next t

/-! ## The invariant -/

/-- What every record of OUT says of itself (R124): a message exactly when decoded; UNKNOWN exactly when the id misses,
else the LUT's name of that id; a payload no longer than declared; a malformed record holds a frame. -/
def recordWf (lut : Lut) : Record → Prop
  | .frame r =>
    (r.msg.isSome = true ↔ r.status = .decoded) ∧
    (r.name = none ↔ r.status = .unknownFunctionId) ∧
    (match r.name with
      | none => lookLut lut r.fid = .miss
      | some n => ∃ d, lookLut lut r.fid = .hit n d) ∧
    r.payload.length ≤ r.n.toNat
  | .malformed raw => raw ≠ []

/-- The invariant of the machine between steps. -/
structure Inv (s : State) : Prop where
  /-- The LUT is in its canonical form. -/
  memory : Memory.wf s = true
  /-- The LUT is one that R66 to R69 allow. -/
  lut : lutConforms s.lut = true
  /-- The parameters are consistent. -/
  params : paramsConform s.params = true
  /-- BUF holds no delimiter but at index 0 (R84). -/
  buf : Config.delim ∉ s.buf.tail
  /-- A finite BUF holds at most BUF_CAP bytes (R21). -/
  cap : ∀ c, s.params.bufCap = some c → s.buf.length ≤ c
  /-- LAST is `none` or the name of a LUT row (R22, R130). -/
  last : ∀ n, s.last = some n → ∃ r ∈ s.lut, r.name = n
  /-- Every record is well formed (R124). -/
  out : ∀ r ∈ s.out, recordWf s.lut r
  /-- No per-frame value survives a step (R20, R27). -/
  work : s.work = Work.none

/-! ## Segmentation (R84) -/

/-- The bytes of a list of stimuli, NoData removed. -/
def bytesOf (xs : List Stimulus) : List Byte :=
  xs.filterMap fun x => match x with
    | .byte b => some b
    | _ => none

/-- The stream made of the bytes before the first delimiter and, after each delimiter, the bytes up to the next. -/
def rejoin (pre : List Byte) (segs : List (List Byte)) : List Byte :=
  pre ++ (segs.map fun g => Config.delim :: g).flatten

/-- The candidate frames of that stream, in order: `pre` if a delimiter follows it and it is not empty, then each
delimited piece but the last. -/
def candidates (pre : List Byte) (segs : List (List Byte)) : List Frame :=
  (if pre = [] ∨ segs = [] then [] else [pre]) ++ segs.dropLast.map fun g => Config.delim :: g

/-- What BUF holds after that stream. -/
def tailBytes (pre : List Byte) (segs : List (List Byte)) : List Byte :=
  match segs.getLast? with
  | none => pre
  | some g => Config.delim :: g

/-! ## The stages of R117 as a program -/

/-- Executes operations one after another, stopping at the first that does not answer a next state. -/
def runRows : List Instr → State → Host.Outcome State Fault Refusal
  | [], s => .next s
  | i :: is, s =>
    match exec i s with
    | .next t => runRows is t
    | .fault r => .fault r
    | .refused r => .refused r

/-- The rows that PROCESS_FRAME calls, in the order of R117. -/
def frameRows (f : Frame) : List Instr :=
  [.checkMin f, .parseHeader f, .slicePayload f, .cksRx f, .cksCalc f, .cksCompare f, .lookup f,
   .suppressTest f, .suppressUpdate f, .dispatch f, .decode f]

/-- The record that lines 8 to 21 of R117 emit, read from the per-frame values alone; none where one of them does not
exist, or the frame was dropped. -/
def assemble (w : Work) : Option Record :=
  match w.frame, w.start, w.fid, w.n, w.payload, w.cksRx, w.cksOk, w.look with
  | some f, some start, some fid, some n, some payload, some cks, some ok, some look =>
    match look with
    | .miss => some (.frame ⟨start, fid, none, n, payload, cks, ok, .unknownFunctionId, none⟩)
    | .hit name dec =>
      if w.drop = some true then none
      else
        match dec with
        | none => some (.frame ⟨start, fid, some name, n, payload, cks, ok, .noDecoder, none⟩)
        | some _ =>
          match w.result with
          | some (.ok m) => some (.frame ⟨start, fid, some name, n, payload, cks, ok, .decoded, some m⟩)
          | some (.error .shortPayload) =>
            some (.frame ⟨start, fid, some name, n, payload, cks, ok, .shortPayload, none⟩)
          | some (.error .malformed) => some (.malformed f)
          | none => none
  | _, _, _, _, _, _, _, _ => none

/-! ## Comparing and naming -/

/-- The name of a hit. -/
def nameOf : Look → Option NameTag
  | .miss => none
  | .hit name _ => some name

/-- A record without what the final byte decides: its checksum byte and flag; of a malformed frame, all but the final
byte. -/
def eraseCks : Record → Record
  | .frame r => .frame { r with cks := 0#8, cksOk := false }
  | .malformed raw => .malformed raw.dropLast

/-- The operation of a decoder's own row. -/
def decoderRow (d : Decoder) (name : NameTag) (f : Frame) : Instr :=
  match d with
  | .radarFront => .radarFront name f
  | .radarRear => .radarRear name f
  | .oilElec => .oilElec name f
  | .swcAngle => .swcAngle name f
  | .basicFly => .basicFly name f
  | .travelOil => .travelOil name f
  | .carDoor => .carDoor name f
  | .tpms => .tpms name f
  | .acState => .acState name f
  | .carInfo => .carInfo name f
  | .dataRequest => .dataRequest name f
  | .acSetting => .acSetting name f

/-- The name under which a candidate frame is identified: past the length gate, with a hit (R90, R116). -/
def identifiedName (lut : Lut) (f : Frame) : Option NameTag :=
  if f.length < Config.frameMin then none else nameOf (lookLut lut (frameFid f))

/-- The name of the hit an operation may store into LAST (R22, R132); `none` where it may write none. -/
def hitName (s : State) : Instr → Option NameTag
  | .delim => identifiedName s.lut s.buf
  | .suppressUpdate f => identifiedName s.lut f
  | .processFrame f => identifiedName s.lut f
  | .radarFront name _ => some name
  | .tpms name _ => some name
  | .req130 name _ _ => some name
  | .req144 name _ _ => some name
  | .req192 name _ _ => some name
  | .req200 name _ _ => some name
  | .radarRear name _ => some name
  | .oilElec name _ => some name
  | .basicFly name _ => some name
  | .carDoor name _ => some name
  | .acState name _ => some name
  | .travelOil name _ => some name
  | .swcAngle name _ => some name
  | .carInfo name _ => some name
  | .dataRequest name _ => some name
  | .acSetting name _ => some name
  | .fid46 look _ => nameOf look
  | .append _ => none
  | .noData => none
  | .checkMin _ => none
  | .parseHeader _ => none
  | .slicePayload _ => none
  | .cksRx _ => none
  | .cksCalc _ => none
  | .cksCompare _ => none
  | .lookup _ => none
  | .suppressTest _ => none
  | .dispatch _ => none
  | .decode _ => none
  | .unknownFid _ => none
  | .rdle _ _ _ => none
  | .rdbe _ _ _ => none
  | .reset => none

/-- The frame is identified, with this name. -/
def identifiedAs (lut : Lut) (f : Frame) (n : NameTag) : Prop :=
  4 ≤ f.length ∧ ∃ d, lookLut lut (frameFid f) = .hit n d

/-- The frame is malformed at the length gate or its id misses. -/
def notIdentified (lut : Lut) (f : Frame) : Prop :=
  f.length < 4 ∨ lookLut lut (frameFid f) = .miss

/-- The state after an identified frame that was not suppressed: LAST takes the name, one record is appended, nothing
else changes. -/
def passed (s : State) (name : NameTag) (r : Record) : State :=
  { s with last := some name, out := s.out ++ [r] }

/-- The two bytes at an offset as a big-endian number (R107). -/
def be16 (p : List Byte) (off : Nat) : Nat := (p.getD off 0#8).toNat * 256 + (p.getD (off + 1) 0#8).toNat

end Sys2Proof.Machine
end

