-- ==== Sys2Proof/Certificates/Slice0/Obligations.lean ====
section
/-! DEFINITION. The statements for the provers. Each docstring names the rules it formalises. -/

section

open Sys2Proof Sys2Proof.Machine

/-! ## Reset -/

/-- R200: after reset BUF is empty, LAST is none, OUT is empty. -/
def Obligations.ResetLeavesEmptyBufferAndNoName : Prop :=
  State.reset.buf = [] ∧ State.reset.last = none ∧ State.reset.out = []

/-- R201: the reset action puts the state of R200 from any state; the LUT and the parameters, which are constants, and
the stimuli still to come are as before (entry 15: the model's choice for the stimuli); the per-frame values are gone. -/
def Obligations.ResetActionRestoresResetState : Prop :=
  ∀ s : State, exec .reset s =
    .next { buf := [], last := none, out := [], lut := s.lut, params := s.params, work := Work.none, input := s.input }

/-! ## Encoding -/

/-- Decoding an encoded well-formed operation gives it back, for every operation and every LUT (R60 to R72). -/
def Obligations.DecodeOfEncodeIsIdentity : Prop :=
  ∀ (lut : Lut) (i : Instr), WellFormed lut i = true → decode lut (encode i) = .ok i

/-- The other direction (R60 to R72): what decodes is well formed, and encodes back to the form it was read from, but for
a candidate frame that has no row of its own and is read as PROCESS_FRAME, the row of every candidate (entry 9). -/
def Obligations.DecodedFormIsWellFormed : Prop :=
  ∀ (lut : Lut) (w : Fetched) (i : Instr), decode lut w = .ok i →
    WellFormed lut i = true ∧ (encode i = w ∨ ∃ f, w = .candidate f ∧ i = .processFrame f)

/-- Words written out from R60, R66, R67, R68, R69, R72, under the spec's reference table LUT_TV (entry 3). -/
def Obligations.WrittenOutWordsDecode : Prop :=
  decode Config.lutReference (.stim (.byte 0b00101110#8)) = .ok .delim ∧
  decode Config.lutReference (.stim (.byte 0b00011101#8)) = .ok (.append 0x1D#8) ∧
  decode Config.lutReference (.stim .noData) = .ok .noData ∧
  decode Config.lutReference (.candidate [0x2E#8, 0b00011101#8, 0#8, 0xE2#8]) =
    .ok (.radarFront ⟨29⟩ [0x2E#8, 0x1D#8, 0#8, 0xE2#8]) ∧
  decode Config.lutReference (.candidate [0x2E#8, 0b00100101#8, 0#8, 0xDA#8]) =
    .ok (.tpms ⟨37⟩ [0x2E#8, 0x25#8, 0#8, 0xDA#8]) ∧
  decode Config.lutReference (.candidate [0x2E#8, 0b10000010#8, 0#8, 0x7D#8]) =
    .ok (.req130 ⟨130⟩ none [0x2E#8, 0x82#8, 0#8, 0x7D#8]) ∧
  decode Config.lutReference (.candidate [0x2E#8, 0b00000111#8, 0#8, 0xF8#8]) =
    .ok (.unknownFid [0x2E#8, 7#8, 0#8, 0xF8#8]) ∧
  decode Config.lutReference (.candidate [0x2E#8, 0b00101110#8, 0#8, 0xD1#8]) =
    .ok (.fid46 .miss [0x2E#8, 0x2E#8, 0#8, 0xD1#8])

/-- R66 to R69: in every LUT the spec allows, 29 routes to RADAR_FRONT, 37 to TPMS, the four request ids hit, and every
id outside 29..65 and those four misses. -/
def Obligations.ConformingLutFixesTheKnownIds : Prop :=
  ∀ lut : Lut, lutConforms lut = true →
    (∃ n, lookLut lut 0x1D#8 = .hit n (some .radarFront)) ∧
    (∃ n, lookLut lut 0x25#8 = .hit n (some .tpms)) ∧
    (∃ n d, lookLut lut 0x82#8 = .hit n d) ∧ (∃ n d, lookLut lut 0x90#8 = .hit n d) ∧
    (∃ n d, lookLut lut 0xC0#8 = .hit n d) ∧ (∃ n d, lookLut lut 0xC8#8 = .hit n d) ∧
    ∀ fid : Byte, (fid.toNat < 29 ∨ 65 < fid.toNat) →
      fid.toNat ≠ 130 → fid.toNat ≠ 144 → fid.toNat ≠ 192 → fid.toNat ≠ 200 → lookLut lut fid = .miss

/-- R72: a candidate frame that the Frame Assembler cuts after a delimiter (no 0x2E after its first byte, R84) never
decodes to FID_46, whatever the LUT. -/
def Obligations.DelimitedFrameNeverHasFid46 : Prop :=
  ∀ (lut : Lut) (f : Frame) (look : Look) (g : Frame),
    Config.delim ∉ f.tail → decode lut (.candidate f) ≠ .ok (.fid46 look g)

/-! ## The step -/

/-- When a stimulus waits, `step` executes the operation it decodes to, on the state without it, and drops the per-frame
values (R11, R27, R30); a fault or a refusal of the operation is the step's. -/
def Obligations.StepRunsTheDecodedStimulus : Prop :=
  ∀ (s : State) (x : Stimulus) (rest : List Stimulus) (i : Instr),
    s.input = x :: rest → decode s.lut (.stim x) = .ok i →
    step s =
      match exec i { s with input := rest } with
      | .next t => .next { t with work := Work.none }
      | .fault r => .fault r
      | .refused r => .refused r

/-- Where no stimulus waits the read timed out, which is NODATA: nothing changes but the per-frame values, which are
dropped (R30, R83; entry 1: that an empty input is a timed-out read is the model's choice). -/
def Obligations.StepWithoutStimulusChangesNothing : Prop :=
  ∀ s : State, s.input = [] → step s = .next { s with work := Work.none }

/-- The frame-level fetch (R5, R82, R117): DELIM on a BUF that holds a candidate frame executes the instruction that
frame decodes to, on the state whose BUF is the new delimiter. -/
def Obligations.DelimRunsTheInstructionOfTheFrame : Prop :=
  ∀ (s : State) (i : Instr),
    decode s.lut (.candidate s.buf) = .ok i → exec .delim s = exec i { s with buf := [Config.delim] }

/-- R214, R197: with BUF_CAP infinite no run ever stops. -/
def Obligations.UnboundedBuildNeverStops : Prop :=
  ∀ s : State, s.params.bufCap = none → Safe s

/-- R190: in a finite build a run of steps stops only by BufferOverflow, and a step does so only when a non-delimiter
byte arrives at a full BUF. -/
def Obligations.OnlyOverflowStopsAStep : Prop :=
  ∀ s : State, (∃ t, step s = .next t) ∨
    (step s = .fault .bufferOverflow ∧
      ∃ (b : Byte) (rest : List Stimulus) (c : Nat),
        s.input = .byte b :: rest ∧ b ≠ Config.delim ∧ s.params.bufCap = some c ∧ c ≤ s.buf.length)

/-! ## Stream level -/

/-- R81: APPEND puts its byte at the end of BUF and changes nothing else. -/
def Obligations.AppendAddsOneByte : Prop :=
  ∀ (s : State) (b : Byte), (∀ c, s.params.bufCap = some c → s.buf.length < c) →
    exec (.append b) s = .next { s with buf := s.buf ++ [b] }

/-- R190, R81: APPEND at a full BUF of a finite build is the fault BufferOverflow. -/
def Obligations.AppendToFullBufferFaults : Prop :=
  ∀ (s : State) (b : Byte) (c : Nat), s.params.bufCap = some c → c ≤ s.buf.length →
    exec (.append b) s = .fault .bufferOverflow

/-- R82: DELIM at an empty BUF starts a buffer and emits nothing; at another it hands BUF to PROCESS_FRAME, and BUF is
the new delimiter whatever the frame's outcome. -/
def Obligations.DelimReleasesTheBuffer : Prop :=
  ∀ s : State,
    (s.buf = [] → exec .delim s = .next { s with buf := [0x2E#8] }) ∧
    (s.buf ≠ [] → exec .delim s = .next { s.processFrame s.buf with buf := [0x2E#8] })

/-- R83: NODATA is the identity on the state; and NoData events anywhere in the input change no later state and no output:
the run of all the stimuli ends exactly as the run of the others. -/
def Obligations.NoDataEventsAreInvisible : Prop :=
  (∀ s : State, exec .noData s = .next s) ∧
  ∀ (s : State) (xs : List Stimulus), s.work = Work.none →
    Host.Core.run Sys2Proof.core xs.length { s with input := xs } =
      Host.Core.run Sys2Proof.core (xs.filter (fun x => decide (x ≠ .noData))).length
        { s with input := xs.filter (fun x => decide (x ≠ .noData)) }

/-- R84: from an empty BUF, any stream of bytes and NoData events is cut at every delimiter and at nothing else: the
candidate frames are processed in order and the rest stays in BUF. -/
def Obligations.StreamIsCutAtEveryDelimiter : Prop :=
  ∀ (s : State) (xs rest : List Stimulus) (pre : List Byte) (segs : List (List Byte)),
    s.params.bufCap = none → s.work = Work.none → s.buf = [] → s.input = xs ++ rest →
    Stimulus.reset ∉ xs → bytesOf xs = rejoin pre segs →
    Config.delim ∉ pre → (∀ g ∈ segs, Config.delim ∉ g) →
    Host.Core.run Sys2Proof.core xs.length s =
      .next { (candidates pre segs).foldl State.processFrame s with buf := tailBytes pre segs, input := rest }

/-! ## Frame stages -/

/-- R90: a candidate of fewer than four bytes ends as MalformedFrame, with itself as its record and LAST untouched. -/
def Obligations.ShortCandidateIsMalformed : Prop :=
  ∀ (s : State) (f : Frame), f.length < 4 →
    exec (.checkMin f) s = .next { s with out := s.out ++ [.malformed f] } ∧
    exec (.processFrame f) s = .next { s with out := s.out ++ [.malformed f] }

/-- R90, R93: on a frame of four bytes or more CHECK_MIN passes it on as F and SLICE_PAYLOAD leaves the payload, clipped at
the end of the frame; nothing else changes. That the values are left in `work` is the model's choice (entry 7). -/
def Obligations.GateAndSliceLeaveTheirValues : Prop :=
  ∀ (s : State) (start fid n c : Byte) (body : List Byte),
    exec (.checkMin (start :: fid :: n :: (body ++ [c]))) s =
      .next { s with work := { s.work with frame := some (start :: fid :: n :: (body ++ [c])) } } ∧
    exec (.slicePayload (start :: fid :: n :: (body ++ [c]))) s =
      .next { s with work := { s.work with payload := some ((body ++ [c]).take n.toNat) } }

/-- R91, R94, R95, R96, R116: on a frame of four bytes or more PARSE_HEADER, CKS_RX, CKS_CALC, CKS_COMPARE and LOOKUP leave
the value their rule defines and change nothing else; the received checksum is the final byte, whatever N says. That the
values are left in `work` is the model's choice (entry 7). -/
def Obligations.HeaderChecksumAndLookupLeaveTheirValues : Prop :=
  ∀ (s : State) (start fid n c : Byte) (body : List Byte),
    exec (.parseHeader (start :: fid :: n :: (body ++ [c]))) s =
      .next { s with work := { s.work with start := some start, fid := some fid, n := some n } } ∧
    exec (.cksRx (start :: fid :: n :: (body ++ [c]))) s =
      .next { s with work := { s.work with cksRx := some c } } ∧
    exec (.cksCalc (start :: fid :: n :: (body ++ [c]))) s =
      .next { s with work := { s.work with
        cksCalc := some (BitVec.ofNat 8 (fid.toNat + n.toNat + (body.map BitVec.toNat).sum) ^^^ 0xFF#8) } } ∧
    exec (.cksCompare (start :: fid :: n :: (body ++ [c]))) s =
      .next { s with work := { s.work with
        cksOk := some (decide
          (BitVec.ofNat 8 (fid.toNat + n.toNat + (body.map BitVec.toNat).sum) ^^^ 0xFF#8 = c)) } } ∧
    exec (.lookup (start :: fid :: n :: (body ++ [c]))) s =
      .next { s with work := { s.work with look := some (lookLut s.lut fid) } }

/-- R93: the payload is the bytes from index 3, at most N of them, clipped at the end of the frame: `min(N, len-3)` of
them; the checksum byte stays out of a well-formed frame's payload and ends that of a frame shorter than declared. -/
def Obligations.PayloadIsClippedAtTheFrameEnd : Prop :=
  ∀ (start fid n : Byte) (body : List Byte) (c : Byte),
    (framePayload (start :: fid :: n :: (body ++ [c]))).length = min n.toNat (body.length + 1) ∧
    (∀ k, k < n.toNat → k < body.length + 1 →
      (framePayload (start :: fid :: n :: (body ++ [c])))[k]? = (start :: fid :: n :: (body ++ [c]))[3 + k]?) ∧
    (body.length = n.toNat → framePayload (start :: fid :: n :: (body ++ [c])) = body) ∧
    (body.length < n.toNat → framePayload (start :: fid :: n :: (body ++ [c])) = body ++ [c])

/-- R95, corner case 2: a frame matches exactly when its bytes from the function id to the final byte sum to 255 modulo
256. -/
def Obligations.ChecksumMatchesExactlyAtSum255 : Prop :=
  ∀ f : Frame, 2 ≤ f.length →
    (cksOk f = true ↔ ((f.drop 1).map BitVec.toNat).sum % 256 = 255)

/-- R99 (a), with R74: a frame built with the source's checksum validates, and its id and payload are read back. -/
def Obligations.BuiltFrameValidates : Prop :=
  ∀ (fid : Byte) (p : List Byte), p.length ≤ 255 →
    cksOk (wireFrame fid p) = true ∧ frameFid (wireFrame fid p) = fid ∧ framePayload (wireFrame fid p) = p

/-- R99 (b) and its last sentence: in a frame that matches, flipping one bit of any byte after the first, the final one
included, yields a mismatch. -/
def Obligations.SingleBitFlipIsDetected : Prop :=
  ∀ (f : Frame) (i k : Nat), 2 ≤ f.length → 1 ≤ i → i < f.length → k < 8 → cksOk f = true →
    cksOk (f.set i (f.getD i 0#8 ^^^ BitVec.twoPow 8 k)) = false

/-- R97, R122: two frames that differ in the final byte only, that byte being in no payload, have the same effect on
LAST and the same record but for the checksum byte and flag: the checksum steers nothing. -/
def Obligations.ChecksumSteersNothing : Prop :=
  ∀ (s : State) (start fid n : Byte) (body : List Byte) (c c' : Byte), n.toNat ≤ body.length →
    (s.processFrame (start :: fid :: n :: (body ++ [c]))).last =
      (s.processFrame (start :: fid :: n :: (body ++ [c']))).last ∧
    (s.processFrame (start :: fid :: n :: (body ++ [c]))).out.map eraseCks =
      (s.processFrame (start :: fid :: n :: (body ++ [c']))).out.map eraseCks

/-! ## Suppressor, routing, the whole procedure -/

/-- R131, R132, on an identified frame: SUPPRESS_TEST drops exactly when LAST holds the name and changes no persistent
state (its answer is left in `work`: entry 7); SUPPRESS_UPDATE, executed by itself, stores the name and changes nothing
else (entry 8). -/
def Obligations.SuppressorTestsAndStoresTheName : Prop :=
  ∀ (s : State) (f : Frame) (name : NameTag) (dec : Option Decoder),
    4 ≤ f.length → lookLut s.lut (frameFid f) = .hit name dec →
    exec (.suppressTest f) s = .next { s with work := { s.work with drop := some (decide (s.last = some name)) } } ∧
    exec (.suppressUpdate f) s = .next { s with last := some name }

/-- R120, R121, on a frame whose LUT entry has a decoder: DISPATCH routes the payload to it; DECODE leaves ShortPayload
below its MINLEN and the decoder's own answer otherwise; neither changes anything else. That the values are left in `work`
is the model's choice (entry 7). -/
def Obligations.DispatchRoutesAndDecodeDecodes : Prop :=
  ∀ (s : State) (f : Frame) (name : NameTag) (d : Decoder),
    4 ≤ f.length → lookLut s.lut (frameFid f) = .hit name (some d) →
    exec (.dispatch f) s = .next { s with work := { s.work with routed := some (d, framePayload f) } } ∧
    ((framePayload f).length < minLen s.params d →
      exec (.decode f) s = .next { s with work := { s.work with result := some (.error .shortPayload) } }) ∧
    (minLen s.params d ≤ (framePayload f).length →
      exec (.decode f) s =
        .next { s with work := { s.work with result := some (decodeBody s.params d (framePayload f)) } })

/-- R133, R119, entry 8: on a frame whose id misses the suppressor is not consulted and nothing is routed or decoded:
SUPPRESS_TEST, SUPPRESS_UPDATE, DISPATCH and DECODE change nothing. -/
def Obligations.UnidentifiedFrameLeavesTheSuppressorAlone : Prop :=
  ∀ (s : State) (f : Frame), 4 ≤ f.length → lookLut s.lut (frameFid f) = .miss →
    exec (.suppressTest f) s = .next s ∧ exec (.suppressUpdate f) s = .next s ∧
    exec (.dispatch f) s = .next s ∧ exec (.decode f) s = .next s

/-- R187, R181: the outcome of a frame is the first that applies, with the record and LAST of the table. -/
def Obligations.ProcessFrameTakesTheFirstOutcome : Prop :=
  ∀ (s : State) (f : Frame), 4 ≤ f.length →
    (lookLut s.lut (frameFid f) = .miss →
      exec (.processFrame f) s =
        .next { s with out := s.out ++ [.frame (frameRec f none .unknownFunctionId none)] }) ∧
    (∀ name dec, lookLut s.lut (frameFid f) = .hit name dec →
      (s.last = some name → exec (.processFrame f) s = .next s) ∧
      (s.last ≠ some name →
        (dec = none →
          exec (.processFrame f) s = .next (passed s name (.frame (frameRec f (some name) .noDecoder none)))) ∧
        (∀ d, dec = some d →
          (decodePayload s.params d (framePayload f) = .error .shortPayload →
            exec (.processFrame f) s =
              .next (passed s name (.frame (frameRec f (some name) .shortPayload none)))) ∧
          (decodePayload s.params d (framePayload f) = .error .malformed →
            exec (.processFrame f) s = .next (passed s name (.malformed f))) ∧
          (∀ m, decodePayload s.params d (framePayload f) = .ok m →
            exec (.processFrame f) s =
              .next (passed s name (.frame (frameRec f (some name) .decoded (some m))))))))

/-- R124: the fields of a frame record, from the bytes of the frame. -/
def Obligations.FrameRecordHoldsTheRawFields : Prop :=
  ∀ (start fid n c : Byte) (body : List Byte) (name : Option NameTag) (st : Status) (m : Option Message),
    frameRec (start :: fid :: n :: (body ++ [c])) name st m =
      { start := start, fid := fid, name := name, n := n, payload := (body ++ [c]).take n.toNat, cks := c
        cksOk := decide (((fid.toNat + n.toNat + (body.map BitVec.toNat).sum) % 256) ^^^ 255 = c.toNat)
        status := st, msg := m }

/-- R117: PROCESS_FRAME on a frame past the length gate is its rows executed in order: LAST is what they leave, and the
record is the one their values assemble to. The rows are run to the end also where R117 has returned (a missed id, a dropped
frame), with the effects there of entry 8, and leave their values in `work`, entry 7: both are the model's choice. -/
def Obligations.ProcessFrameIsItsRowsInOrder : Prop :=
  ∀ (s : State) (f : Frame), 4 ≤ f.length →
    ∃ t : State, runRows (frameRows f) s = .next t ∧ t.out = s.out ∧ t.buf = s.buf ∧
      exec (.processFrame f) s = .next { s with last := t.last, out := s.out ++ (assemble t.work).toList }

/-- R134: frames that are not identified, however many, do not break a run: after an identified frame and any number of
them, another frame of the same name is dropped without a trace. -/
def Obligations.UnidentifiedFramesDoNotBreakARun : Prop :=
  ∀ (s : State) (f g : Frame) (between : List Frame) (n : NameTag),
    identifiedAs s.lut f n → identifiedAs s.lut g n → (∀ u ∈ between, notIdentified s.lut u) →
    ((f :: between) ++ [g]).foldl State.processFrame s = (f :: between).foldl State.processFrame s

/-- R134: in a sequence of identified frames a frame adds a record exactly when its name differs from that of the frame
just before it (for the first: from what LAST holds). -/
def Obligations.FramePassesExactlyWhenNameChanges : Prop :=
  ∀ (s : State) (fs : List Frame) (ns : List NameTag),
    List.Forall₂ (identifiedAs s.lut) fs ns →
    ∀ (i : Nat) (n : NameTag), ns[i]? = some n →
      ((fs.take (i + 1)).foldl State.processFrame s).out.length =
        ((fs.take i).foldl State.processFrame s).out.length +
          (if (if i = 0 then s.last else ns[i - 1]?) = some n then 0 else 1)

/-! ## Function-id operations -/

/-- R131, R133, R187: every operation of an identified frame whose name LAST holds is dropped: the state is as before. -/
def Obligations.RepeatedNameIsDropped : Prop :=
  ∀ (s : State) (f : Frame) (name : NameTag) (dec : Option Decoder) (d : Decoder),
    4 ≤ f.length → s.last = some name →
    exec (decoderRow d name f) s = .next s ∧
    exec (.req130 name dec f) s = .next s ∧ exec (.req144 name dec f) s = .next s ∧
    exec (.req192 name dec f) s = .next s ∧ exec (.req200 name dec f) s = .next s ∧
    exec (.fid46 (.hit name dec) f) s = .next s

/-- R140, R183, R123: below its MINLEN every decoder gives ShortPayload: the record carries no message, and LAST holds
the name. -/
def Obligations.ShortPayloadIsReportedAndNameKept : Prop :=
  ∀ (s : State) (f : Frame) (name : NameTag) (d : Decoder),
    4 ≤ f.length → s.last ≠ some name → (framePayload f).length < minLen s.params d →
    exec (decoderRow d name f) s = .next (passed s name (.frame (frameRec f (some name) .shortPayload none)))

/-- R142: bytes past those a decoder reads change nothing: a payload that decodes, made longer, decodes to the same
message (every decoder but CAR_INFO, whose layouts are open; consistent layout parameters). -/
def Obligations.LongerPayloadDecodesTheSame : Prop :=
  ∀ (pr : Params) (d : Decoder) (p more : List Byte) (m : Message),
    paramsConform pr = true → d ≠ .carInfo → decodePayload pr d p = .ok m → decodePayload pr d (p ++ more) = .ok m

/-- R109, R141, R154, R184: with consistent layout parameters a decode ends as MalformedFrame for the TPMS unit bits 11
alone: no other decoder ever does, CAR_INFO with its open layouts included (entry 13: that a mode 2 read past the payload is
ShortPayload is DEDUCED). -/
def Obligations.OnlyTpmsUnitBitsAreMalformed : Prop :=
  ∀ (pr : Params) (d : Decoder) (p : List Byte),
    paramsConform pr = true → decodePayload pr d p = .error .malformed →
    d = .tpms ∧ ∃ b, p[0]? = some b ∧ b.toNat % 4 = 3

/-- R144: the proximity map. -/
def Obligations.ProximityMap : Prop :=
  lvl 1#8 = 1 ∧ lvl 2#8 = 4 ∧ lvl 3#8 = 7 ∧ lvl 4#8 = 10 ∧
    ∀ c : Byte, c ≠ 1#8 → c ≠ 2#8 → c ≠ 3#8 → c ≠ 4#8 → lvl c = 0

/-- R145 (with R144): RADAR_FRONT on a frame that is not a repeat. -/
def Obligations.RadarFrontReportsFourLevels : Prop :=
  ∀ (s : State) (f : Frame) (name : NameTag), 4 ≤ f.length → s.last ≠ some name →
    (∀ c0 c1 c2 c3 rest, framePayload f = c0 :: c1 :: c2 :: c3 :: rest →
      exec (.radarFront name f) s = .next (passed s name (.frame (frameRec f (some name) .decoded
        (some (.radarFront ⟨lvl c0, lvl c1, lvl c2, lvl c3⟩)))))) ∧
    ((framePayload f).length < 4 → exec (.radarFront name f) s =
      .next (passed s name (.frame (frameRec f (some name) .shortPayload none))))

/-- R146, R147: RADAR_REAR on a frame that is not a repeat, with the CentralState byte bit by bit. -/
def Obligations.RadarRearReportsLevelsAndCentral : Prop :=
  ∀ (s : State) (f : Frame) (name : NameTag), 4 ≤ f.length → s.last ≠ some name →
    (∀ c0 c1 c2 c3 c4 rest, framePayload f = c0 :: c1 :: c2 :: c3 :: c4 :: rest →
      exec (.radarRear name f) s = .next (passed s name (.frame (frameRec f (some name) .decoded
        (some (.radarRear ⟨lvl c0, lvl c1, lvl c2, lvl c3,
          { radarEnabled := c4.getLsbD 7, sensitivity := c4.getLsbD 6, alarmVolumeSwitch := c4.getLsbD 4,
            volumeLevel := c4.toNat % 8 }⟩)))))) ∧
    ((framePayload f).length < 5 → exec (.radarRear name f) s =
      .next (passed s name (.frame (frameRec f (some name) .shortPayload none))))

/-- R148: OIL_ELEC on a frame that is not a repeat; below its MINLEN of 2 (R141, the spec's decision D14) it is ShortPayload
(R140). -/
def Obligations.OilElectricityReportsItsBits : Prop :=
  ∀ (s : State) (f : Frame) (name : NameTag), 4 ≤ f.length → s.last ≠ some name →
    (∀ b0 b1 rest, framePayload f = b0 :: b1 :: rest →
      exec (.oilElec name f) s = .next (passed s name (.frame (frameRec f (some name) .decoded
        (some (.oilElectricity
          { batteryCapacity := b0.toNat % 8, hybrid := b0.getLsbD 7
            powerFlow := ⟨b1.getLsbD 0, b1.getLsbD 1, b1.getLsbD 2, b1.getLsbD 3, b1.getLsbD 4, b1.getLsbD 5⟩ })))))) ∧
    ((framePayload f).length < 2 → exec (.oilElec name f) s =
      .next (passed s name (.frame (frameRec f (some name) .shortPayload none))))

/-- R149: BASIC_FLY on a frame that is not a repeat, for every consistent layout: three big-endian 2-byte values, the
first × 0.1, and the unit of the unit byte. -/
def Obligations.BasicFlyReportsBigEndianValues : Prop :=
  ∀ (s : State) (f : Frame) (name : NameTag), 4 ≤ f.length → s.last ≠ some name → paramsConform s.params = true →
    s.params.mlBasicFly ≤ (framePayload f).length →
    ∃ u : MileageUnit,
      exec (.basicFly name f) s = .next (passed s name (.frame (frameRec f (some name) .decoded
        (some (.basicFly
          { averageSpeed := (be16 (framePayload f) s.params.bfOffSpeed : Rat) / 10
            driverTime := be16 (framePayload f) s.params.bfOffTime
            mileage := be16 (framePayload f) s.params.bfOffMileage
            mileageUnit := u }))))) ∧
      ((framePayload f)[s.params.bfOffUnit]? = some s.params.bfKeySpace → u = .space) ∧
      ((framePayload f)[s.params.bfOffUnit]? = some s.params.bfKeyMile → u = .mile) ∧
      ((framePayload f)[s.params.bfOffUnit]? = some s.params.bfKeyKm → u = .km) ∧
      (∀ b, (framePayload f)[s.params.bfOffUnit]? = some b → b ≠ s.params.bfKeySpace → b ≠ s.params.bfKeyMile →
        b ≠ s.params.bfKeyKm → u = .unknown b)

/-- R150: CAR_DOOR on a frame that is not a repeat, in the two flag orders. -/
def Obligations.CarDoorReportsItsFlags : Prop :=
  ∀ (s : State) (f : Frame) (name : NameTag), 4 ≤ f.length → s.last ≠ some name →
    (∀ b0 b1 rest, framePayload f = b0 :: b1 :: rest →
      (s.params.flagOrder = .descending →
        exec (.carDoor name f) s = .next (passed s name (.frame (frameRec f (some name) .decoded
          (some (.carDoor
            { frontRight := b0.getLsbD 7, frontLeft := b0.getLsbD 6, backRight := b0.getLsbD 5
              backLeft := b0.getLsbD 4, trunk := b0.getLsbD 3
              frontCover := b1.getLsbD 7, skyWindow := b1.toNat / 32 % 4 })))))) ∧
      (s.params.flagOrder = .ascending →
        exec (.carDoor name f) s = .next (passed s name (.frame (frameRec f (some name) .decoded
          (some (.carDoor
            { frontRight := b0.getLsbD 3, frontLeft := b0.getLsbD 4, backRight := b0.getLsbD 5
              backLeft := b0.getLsbD 6, trunk := b0.getLsbD 7
              frontCover := b1.getLsbD 7, skyWindow := b1.toNat / 32 % 4 }))))))) ∧
    ((framePayload f).length < 2 → exec (.carDoor name f) s =
      .next (passed s name (.frame (frameRec f (some name) .shortPayload none))))

/-- R153: TEMP. -/
def Obligations.TemperatureMap : Prop :=
  tempOf 0#8 true = .low ∧ tempOf 255#8 true = .high ∧
  (∀ r : Byte, r.toNat ≠ 0 → r.toNat ≠ 255 → tempOf r true = .degF r.toNat) ∧
  tempOf 0#8 false = .low ∧ tempOf 31#8 false = .high ∧
  (∀ r : Byte, 31 < r.toNat → tempOf r false = .degC ((r.toNat : Rat) * 2)) ∧
  (∀ r : Byte, 0 < r.toNat → r.toNat < 31 → tempOf r false = .degC ((r.toNat : Rat) / 2 + 35 / 2))

/-- R151, R152, R153: AC_STATE on a frame that is not a repeat, in the two flag orders. The high nibble of byte 7 goes
through the open layout AC_B7_LAYOUT, a free value (entry 14). -/
def Obligations.AcStateReportsItsFields : Prop :=
  ∀ (s : State) (f : Frame) (name : NameTag), 4 ≤ f.length → s.last ≠ some name →
    (∀ b0 b1 b2 b3 b4 b5 b6 b7 rest, framePayload f = b0 :: b1 :: b2 :: b3 :: b4 :: b5 :: b6 :: b7 :: rest →
      ∃ m : AcState,
        exec (.acState name f) s =
          .next (passed s name (.frame (frameRec f (some name) .decoded (some (.acState m))))) ∧
        (s.params.flagOrder = .descending →
          m.acSwitch = b0.getLsbD 7 ∧ m.mode = b0.getLsbD 6 ∧ m.recirculation = b0.getLsbD 5 ∧
          m.auto = b0.getLsbD 3 ∧ m.dual = b0.getLsbD 2 ∧ m.maxAC = b0.getLsbD 1 ∧ m.autoDefog = b0.getLsbD 0) ∧
        (s.params.flagOrder = .ascending →
          m.acSwitch = b0.getLsbD 0 ∧ m.mode = b0.getLsbD 1 ∧ m.recirculation = b0.getLsbD 2 ∧
          m.auto = b0.getLsbD 3 ∧ m.dual = b0.getLsbD 5 ∧ m.maxAC = b0.getLsbD 6 ∧ m.autoDefog = b0.getLsbD 7) ∧
        m.airflowDir7 = b1.getLsbD 7 ∧ m.airflowDir6 = b1.getLsbD 6 ∧ m.airflowDir5 = b1.getLsbD 5 ∧
        m.fanSpeed = b1.toNat % 16 ∧ m.frontWindowDefog = b4.getLsbD 7 ∧ m.backWindowDefog = b4.getLsbD 6 ∧
        m.econ = b4.getLsbD 4 ∧ m.unitFlag = b4.getLsbD 6 ∧
        m.leftSideTemperature = tempOf b2 (b4.getLsbD 6) ∧ m.tempByte3 = tempOf b3 (b4.getLsbD 6) ∧
        m.tempByte6 = tempOf b6 (b4.getLsbD 6) ∧
        m.leftSeatHeat = b5.toNat % 4 ∧ m.rightSeatHeat = b5.toNat / 4 % 4 ∧ m.rearFanSpeed = b7.toNat % 16 ∧
        m.rearAirflow = Config.acB7Layout (b7.extractLsb' 4 4)) ∧
    ((framePayload f).length < 8 → exec (.acState name f) s =
      .next (passed s name (.frame (frameRec f (some name) .shortPayload none))))

/-- R155: PRESS. -/
def Obligations.PressureMap : Prop :=
  ∀ scale : Rat, pressOf 0#8 scale = -1 ∧ pressOf 255#8 scale = -1 ∧
    ∀ r : Byte, r.toNat ≠ 0 → r.toNat ≠ 255 → pressOf r scale = (r.toNat : Rat) * scale

/-- R154, R155: TPMS on a frame that is not a repeat. Unit bits 01 and 10 scale by 1 (on 10 the unit is the open
TPMS_UNIT_10, a free value, entry 6), 00 by 1/10; 11 is MalformedFrame with LAST written. -/
def Obligations.TpmsReportsAlarmsAndPressures : Prop :=
  ∀ (s : State) (f : Frame) (name : NameTag), 4 ≤ f.length → s.last ≠ some name →
    (∀ b0 b1 b2 b3 b4 b5 rest, framePayload f = b0 :: b1 :: b2 :: b3 :: b4 :: b5 :: rest →
      (∀ (unit : Nat) (scale : Rat),
        ((b0.toNat % 4 = 0 ∧ unit = 2 ∧ scale = 1 / 10) ∨ (b0.toNat % 4 = 1 ∧ unit = 1 ∧ scale = 1) ∨
          (b0.toNat % 4 = 2 ∧ unit = Config.tpmsUnit10 ∧ scale = 1)) →
        exec (.tpms name f) s = .next (passed s name (.frame (frameRec f (some name) .decoded
          (some (.tpms
            { unit := unit, scale := scale, alarmActive := b0.getLsbD 6
              wheelAlarm :=
                if b0.getLsbD 6 = true then ⟨3, 3, 3, 3⟩ else ⟨0, 0, 0, 0⟩
              wheelPressure := ⟨pressOf b1 scale, pressOf b2 scale, pressOf b3 scale, pressOf b4 scale⟩
              sparePressure := pressOf b5 scale })))))) ∧
      (b0.toNat % 4 = 3 → exec (.tpms name f) s = .next (passed s name (.malformed f)))) ∧
    ((framePayload f).length < 6 → exec (.tpms name f) s =
      .next (passed s name (.frame (frameRec f (some name) .shortPayload none))))

/-- R156: TRAVEL_OIL on a frame that is not a repeat, for every consistent layout: six big-endian 2-byte values × 0.1;
the unit is the row of the table whose key is byte 0; for a code outside the table it is the free value of entry 12 (the
model's choice). -/
def Obligations.TravelOilReportsSixFigures : Prop :=
  ∀ (s : State) (f : Frame) (name : NameTag), 4 ≤ f.length → s.last ≠ some name → paramsConform s.params = true →
    s.params.mlTravelOil ≤ (framePayload f).length →
    ∀ b, (framePayload f)[0]? = some b →
      exec (.travelOil name f) s = .next (passed s name (.frame (frameRec f (some name) .decoded
        (some (.travelOil
          { unit :=
              if b = Config.toUnitKey 0 then ⟨.mpg, some 60⟩
              else if b = Config.toUnitKey 1 then ⟨.kmh, some 30⟩
              else if b = Config.toUnitKey 2 then ⟨.l100km, some 30⟩
              else if b = Config.toUnitKey 3 then ⟨.ev 0, none⟩
              else if b = Config.toUnitKey 4 then ⟨.ev 1, none⟩
              else if b = Config.toUnitKey 5 then ⟨.ev 2, none⟩
              else if b = Config.toUnitKey 6 then ⟨.ev 3, none⟩
              else Config.toUnitDefault b
            consumption :=
              ⟨(be16 (framePayload f) s.params.toOff.k0 : Rat) / 10, (be16 (framePayload f) s.params.toOff.k1 : Rat) / 10,
               (be16 (framePayload f) s.params.toOff.k2 : Rat) / 10, (be16 (framePayload f) s.params.toOff.k3 : Rat) / 10,
               (be16 (framePayload f) s.params.toOff.k4 : Rat) / 10,
               (be16 (framePayload f) s.params.toOff.k5 : Rat) / 10⟩ })))))

/-- R157: SWC_ANGLE on a frame that is not a repeat: the angle is minus the 16-bit composite, for every payload (the sign
branch is never taken). -/
def Obligations.SwcAngleIsMinusTheComposite : Prop :=
  ∀ (s : State) (f : Frame) (name : NameTag), 4 ≤ f.length → s.last ≠ some name →
    (∀ b0 b1 rest, framePayload f = b0 :: b1 :: rest →
      exec (.swcAngle name f) s = .next (passed s name (.frame (frameRec f (some name) .decoded
        (some (.swcAngle (-((b0.toNat : Int) + 256 * b1.toNat)))))))) ∧
    ((framePayload f).length < 2 → exec (.swcAngle name f) s =
      .next (passed s name (.frame (frameRec f (some name) .shortPayload none))))

/-- R158: CAR_INFO on a frame that is not a repeat. A mode outside 1, 2, 3 is a successful decode that says so; modes 1
and 3 give what their open layouts give (free values, entry 13); mode 2 gives ShortPayload where its open layout does or a
read would leave the payload, else the big-endian numbers of the layout's bytes, each scaled by 1, 1/10 or 1/100 (entry 13:
the form of the layout and the length test of its reads are DEDUCED), a single byte at the payload's end included (R111); an
empty payload, or one below its mode's own minimum, is ShortPayload. -/
def Obligations.CarInfoReportsItsMode : Prop :=
  ∀ (s : State) (f : Frame) (name : NameTag), 4 ≤ f.length → s.last ≠ some name →
    (∀ mode rest, framePayload f = mode :: rest →
      (mode ≠ 1#8 → mode ≠ 2#8 → mode ≠ 3#8 →
        exec (.carInfo name f) s = .next (passed s name (.frame (frameRec f (some name) .decoded
          (some (.carInfoUnknownMode mode)))))) ∧
      (mode = 1#8 →
        exec (.carInfo name f) s = .next (passed s name
          (if (framePayload f).length < Config.mlCarInfo 1#8 then
            .frame (frameRec f (some name) .shortPayload none)
          else match Config.ciMode1Layout (framePayload f) with
            | some m => .frame (frameRec f (some name) .decoded (some (.carInfoMode1 m)))
            | none => .frame (frameRec f (some name) .shortPayload none)))) ∧
      (mode = 2#8 →
        exec (.carInfo name f) s = .next (passed s name
          (if (framePayload f).length < Config.mlCarInfo 2#8 then
            .frame (frameRec f (some name) .shortPayload none)
          else match Config.ciMode2Layout (framePayload f) with
            | some fds =>
              if ∀ fd ∈ fds, fd.off + fd.cnt ≤ (framePayload f).length then
                .frame (frameRec f (some name) .decoded (some (.carInfoMode2 (fds.map fun fd =>
                  (fd.name, .number
                    (((Nat.ofDigits 256 ((((framePayload f).drop fd.off).take fd.cnt).reverse.map BitVec.toNat) : Nat) : Rat) /
                      (match fd.scale with
                        | .one => 1
                        | .tenth => 10
                        | .hundredth => 100)))))))
              else .frame (frameRec f (some name) .shortPayload none)
            | none => .frame (frameRec f (some name) .shortPayload none)))) ∧
      (mode = 3#8 →
        exec (.carInfo name f) s = .next (passed s name
          (if (framePayload f).length < Config.mlCarInfo 3#8 then
            .frame (frameRec f (some name) .shortPayload none)
          else match Config.ciMode3Layout (framePayload f) with
            | some m => .frame (frameRec f (some name) .decoded (some (.carInfoMode3 m)))
            | none => .frame (frameRec f (some name) .shortPayload none))))) ∧
    (framePayload f = [] → exec (.carInfo name f) s =
      .next (passed s name (.frame (frameRec f (some name) .shortPayload none))))

/-- R158, R107, R109, R111, R143, entry 13 (that mode 2 is a list of big-endian reads with three scales is DEDUCED): whatever
the list, its integers of several bytes are big-endian reads of the payload and those of one byte the byte itself, by direct
index, in order, each scaled by 1, 1/10 or 1/100; if a read by itself met the range rule, or an index lay outside the
payload, the list would end as MalformedFrame; and where every read lies inside the payload, the only case in which the
decoder reads, none does; a list with a read that leaves the payload is ShortPayload. -/
def Obligations.CarInfoMode2ReadsBigEndian : Prop :=
  ∀ (p : List Byte) (fds : List CiField),
    (∀ vs : List Nat,
      List.Forall₂ (fun (fd : CiField) v =>
        if fd.cnt = 1 then ∃ b, p[fd.off]? = some b ∧ v = b.toNat else rd p fd.off fd.cnt .be = .ok v) fds vs →
      readCiFields p fds = .ok (List.zipWith
        (fun (fd : CiField) v => (fd.name, FieldValue.number
          (match fd.scale with
            | .one => (v : Rat)
            | .tenth => (v : Rat) / 10
            | .hundredth => (v : Rat) / 100))) fds vs)) ∧
    ((∃ fd ∈ fds, if fd.cnt = 1 then p.length ≤ fd.off else rd p fd.off fd.cnt .be = .error .malformed) →
      readCiFields p fds = .error .malformed) ∧
    ((∀ fd ∈ fds, fd.off + fd.cnt ≤ p.length) →
      ∃ m, readCiFields p fds = .ok m ∧ decodeCiMode2 p (some fds) = .ok (.carInfoMode2 m)) ∧
    ((∃ fd ∈ fds, p.length < fd.off + fd.cnt) → decodeCiMode2 p (some fds) = .error .shortPayload)

/-- R159: DATA_REQUEST and AC_SETTING on a frame that is not a repeat: the code and its label or none, from the open
tables (free values, entry 6); an unrecognised code is a success. -/
def Obligations.CommandsReportCodeAndLabel : Prop :=
  ∀ (s : State) (f : Frame) (name : NameTag), 4 ≤ f.length → s.last ≠ some name →
    (∀ code rest, framePayload f = code :: rest →
      exec (.dataRequest name f) s = .next (passed s name (.frame (frameRec f (some name) .decoded
        (some (.dataRequest ⟨code, Config.drLabel code⟩))))) ∧
      exec (.acSetting name f) s = .next (passed s name (.frame (frameRec f (some name) .decoded
        (some (.acSetting ⟨code, Config.asLabel code⟩)))))) ∧
    (framePayload f = [] →
      exec (.dataRequest name f) s =
        .next (passed s name (.frame (frameRec f (some name) .shortPayload none))) ∧
      exec (.acSetting name f) s =
        .next (passed s name (.frame (frameRec f (some name) .shortPayload none))))

/-- R68, R117 lines 14 to 21: a request frame that is not a repeat is NoDecoder where its entry has no decoder, and is
what the decoder's own row does where it has one. FID_46 likewise (R72), and it is UnknownFunctionId, with LAST untouched,
where the LUT has no entry there. -/
def Obligations.RequestRowsFollowTheirEntry : Prop :=
  ∀ (s : State) (f : Frame) (name : NameTag), 4 ≤ f.length →
    (s.last ≠ some name →
      exec (.req130 name none f) s = .next (passed s name (.frame (frameRec f (some name) .noDecoder none))) ∧
      exec (.req144 name none f) s = .next (passed s name (.frame (frameRec f (some name) .noDecoder none))) ∧
      exec (.req192 name none f) s = .next (passed s name (.frame (frameRec f (some name) .noDecoder none))) ∧
      exec (.req200 name none f) s = .next (passed s name (.frame (frameRec f (some name) .noDecoder none))) ∧
      exec (.fid46 (.hit name none) f) s =
        .next (passed s name (.frame (frameRec f (some name) .noDecoder none)))) ∧
    (∀ d, exec (.req130 name (some d) f) s = exec (decoderRow d name f) s ∧
      exec (.req144 name (some d) f) s = exec (decoderRow d name f) s ∧
      exec (.req192 name (some d) f) s = exec (decoderRow d name f) s ∧
      exec (.req200 name (some d) f) s = exec (decoderRow d name f) s ∧
      exec (.fid46 (.hit name (some d)) f) s = exec (decoderRow d name f) s) ∧
    exec (.fid46 .miss f) s =
      .next { s with out := s.out ++ [.frame (frameRec f none .unknownFunctionId none)] }

/-- R182: a frame of four bytes or more whose id misses is reported under the marker UNKNOWN, with its raw fields and no
message (the payload clipped, R93); LAST is neither read nor written (R119, the spec's decision D12) and nothing else
changes. FID_46 with no LUT entry likewise (R72). -/
def Obligations.UnknownIdIsReported : Prop :=
  ∀ (s : State) (start fid n c : Byte) (body : List Byte),
    (∀ i : Instr,
      (i = .unknownFid (start :: fid :: n :: (body ++ [c])) ∨ i = .fid46 .miss (start :: fid :: n :: (body ++ [c])) ∨
        (i = .processFrame (start :: fid :: n :: (body ++ [c])) ∧ lookLut s.lut fid = .miss)) →
      exec i s = .next { s with out := s.out ++ [.frame
        { start := start, fid := fid, name := none, n := n, payload := (body ++ [c]).take n.toNat, cks := c
          cksOk := decide (BitVec.ofNat 8 (fid.toNat + n.toNat + (body.map BitVec.toNat).sum) ^^^ 0xFF#8 = c)
          status := .unknownFunctionId, msg := none }] })

/-! ## The Integer Field Reader -/

/-- R106, R107, R108, R109: RDLE and RDBE leave 0 at the guard, MalformedFrame at a partial overrun, and otherwise the
base-256 number of the bytes, the first the least or the most significant; nothing else changes. That the result is left in
`work` is the model's choice (entry 7). -/
def Obligations.ReaderReadsBothOrders : Prop :=
  ∀ (s : State) (w : List Byte) (off cnt : Nat),
    (w.length ≤ off + 1 →
      exec (.rdle w off cnt) s = .next { s with work := { s.work with rd := some (.ok 0) } } ∧
      exec (.rdbe w off cnt) s = .next { s with work := { s.work with rd := some (.ok 0) } }) ∧
    (off + 1 < w.length → w.length < off + cnt →
      exec (.rdle w off cnt) s = .next { s with work := { s.work with rd := some (.error .malformed) } } ∧
      exec (.rdbe w off cnt) s = .next { s with work := { s.work with rd := some (.error .malformed) } }) ∧
    (off + 1 < w.length → off + cnt ≤ w.length →
      exec (.rdle w off cnt) s = .next { s with work := { s.work with
        rd := some (.ok (Nat.ofDigits 256 (((w.drop off).take cnt).map BitVec.toNat))) } } ∧
      exec (.rdbe w off cnt) s = .next { s with work := { s.work with
        rd := some (.ok (Nat.ofDigits 256 (((w.drop off).take cnt).reverse.map BitVec.toNat))) } })

/-- R110: a result has at most `8*cnt` bits; and a little-endian read equals the big-endian read of the reversed bytes
whenever neither meets the guard or the range rule. -/
def Obligations.ReaderResultIsBoundedAndReversible : Prop :=
  (∀ (w : List Byte) (off cnt : Nat) (e : Endian) (v : Nat), rd w off cnt e = .ok v → v < 2 ^ (8 * cnt)) ∧
  (∀ (w : List Byte) (off cnt : Nat), off + 1 < w.length → off + cnt ≤ w.length → 2 ≤ cnt →
    rd w off cnt .le = rd (slice w off (off + cnt)).reverse 0 cnt .be)

/-! ## Rules of the whole machine -/

/-- Inv at reset, with the reference LUT and parameters (entries 3, 5: the model's choice). -/
def Obligations.InvariantAtReset : Prop := Inv State.reset

/-- Every step keeps Inv: the LUT stays canonical and one the spec allows, BUF holds no delimiter but at its head and no
more than BUF_CAP bytes, LAST is a LUT name, every record is well formed, no per-frame value survives (R20, R21, R84,
R115, R124, R130). -/
def Obligations.EveryStepKeepsTheInvariant : Prop :=
  ∀ s t : State, Inv s → step s = .next t → Inv t

/-- Who may write what, over all operations (R21, R22, R31, R115). The LUT and the parameters are never written, nor are the
stimuli still to come (for RESET the last is the model's choice, entry 15). BUF is written by DELIM, APPEND and RESET only.
OUT only grows, by at most one record, except at RESET. LAST is as before, or the name of the hit, where the operation is one
that may store it: DELIM, SUPPRESS_UPDATE, PROCESS_FRAME or the row of an identified function id (`hitName`); only RESET
clears it. -/
def Obligations.OnlyTheNamedOperationsWrite : Prop :=
  ∀ (i : Instr) (s t : State), exec i s = .next t →
    t.lut = s.lut ∧ t.params = s.params ∧ t.input = s.input ∧
    (i ≠ .delim → (∀ b, i ≠ .append b) → i ≠ .reset → t.buf = s.buf) ∧
    (i ≠ .reset → ∃ rs : List Record, t.out = s.out ++ rs ∧ rs.length ≤ 1) ∧
    (i ≠ .reset → s.last ≠ none → t.last ≠ none) ∧
    (i ≠ .reset → t.last = s.last ∨ ∃ name, hitName s i = some name ∧ t.last = some name) ∧
    (i = .reset → t.last = none)

/-- R125: a step emits a record only when its stimulus is a delimiter and BUF was not empty, and then at most one. -/
def Obligations.OnlyADelimiterEmits : Prop :=
  ∀ s t : State, step s = .next t → s.input.head? ≠ some .reset →
    (t.out = s.out ∨ (∃ r, t.out = s.out ++ [r]) ∧ s.input.head? = some (.byte Config.delim) ∧ s.buf ≠ [])

end
end

