-- ==== Sys2Proof/Laws/State.lean ====
section
/-! SUPPORT. The small lemmas of the state operations: one per field per update. -/

namespace Sys2Proof.Machine

/-! ## appendByte -/

@[simp] theorem State.appendByte_buf (s : State) (b : Byte) : (s.appendByte b).buf = s.buf ++ [b] := rfl
@[simp] theorem State.appendByte_last (s : State) (b : Byte) : (s.appendByte b).last = s.last := rfl
@[simp] theorem State.appendByte_out (s : State) (b : Byte) : (s.appendByte b).out = s.out := rfl
@[simp] theorem State.appendByte_lut (s : State) (b : Byte) : (s.appendByte b).lut = s.lut := rfl
@[simp] theorem State.appendByte_params (s : State) (b : Byte) : (s.appendByte b).params = s.params := rfl
@[simp] theorem State.appendByte_work (s : State) (b : Byte) : (s.appendByte b).work = s.work := rfl
@[simp] theorem State.appendByte_input (s : State) (b : Byte) : (s.appendByte b).input = s.input := rfl

/-! ## restartBuf -/

@[simp] theorem State.restartBuf_buf (s : State) : (s.restartBuf).buf = [Config.delim] := rfl
@[simp] theorem State.restartBuf_last (s : State) : (s.restartBuf).last = s.last := rfl
@[simp] theorem State.restartBuf_out (s : State) : (s.restartBuf).out = s.out := rfl
@[simp] theorem State.restartBuf_lut (s : State) : (s.restartBuf).lut = s.lut := rfl
@[simp] theorem State.restartBuf_params (s : State) : (s.restartBuf).params = s.params := rfl
@[simp] theorem State.restartBuf_work (s : State) : (s.restartBuf).work = s.work := rfl
@[simp] theorem State.restartBuf_input (s : State) : (s.restartBuf).input = s.input := rfl

/-! ## setLast -/

@[simp] theorem State.setLast_buf (s : State) (name : NameTag) : (s.setLast name).buf = s.buf := rfl
@[simp] theorem State.setLast_last (s : State) (name : NameTag) : (s.setLast name).last = some name := rfl
@[simp] theorem State.setLast_out (s : State) (name : NameTag) : (s.setLast name).out = s.out := rfl
@[simp] theorem State.setLast_lut (s : State) (name : NameTag) : (s.setLast name).lut = s.lut := rfl
@[simp] theorem State.setLast_params (s : State) (name : NameTag) : (s.setLast name).params = s.params := rfl
@[simp] theorem State.setLast_work (s : State) (name : NameTag) : (s.setLast name).work = s.work := rfl
@[simp] theorem State.setLast_input (s : State) (name : NameTag) : (s.setLast name).input = s.input := rfl

/-! ## emit -/

@[simp] theorem State.emit_buf (s : State) (r : Record) : (s.emit r).buf = s.buf := rfl
@[simp] theorem State.emit_last (s : State) (r : Record) : (s.emit r).last = s.last := rfl
@[simp] theorem State.emit_out (s : State) (r : Record) : (s.emit r).out = s.out ++ [r] := rfl
@[simp] theorem State.emit_lut (s : State) (r : Record) : (s.emit r).lut = s.lut := rfl
@[simp] theorem State.emit_params (s : State) (r : Record) : (s.emit r).params = s.params := rfl
@[simp] theorem State.emit_work (s : State) (r : Record) : (s.emit r).work = s.work := rfl
@[simp] theorem State.emit_input (s : State) (r : Record) : (s.emit r).input = s.input := rfl

/-! ## setWork -/

@[simp] theorem State.setWork_buf (s : State) (w : Work) : (s.setWork w).buf = s.buf := rfl
@[simp] theorem State.setWork_last (s : State) (w : Work) : (s.setWork w).last = s.last := rfl
@[simp] theorem State.setWork_out (s : State) (w : Work) : (s.setWork w).out = s.out := rfl
@[simp] theorem State.setWork_lut (s : State) (w : Work) : (s.setWork w).lut = s.lut := rfl
@[simp] theorem State.setWork_params (s : State) (w : Work) : (s.setWork w).params = s.params := rfl
@[simp] theorem State.setWork_work (s : State) (w : Work) : (s.setWork w).work = w := rfl
@[simp] theorem State.setWork_input (s : State) (w : Work) : (s.setWork w).input = s.input := rfl

/-! ## dropWork -/

@[simp] theorem State.dropWork_buf (s : State) : (s.dropWork).buf = s.buf := rfl
@[simp] theorem State.dropWork_last (s : State) : (s.dropWork).last = s.last := rfl
@[simp] theorem State.dropWork_out (s : State) : (s.dropWork).out = s.out := rfl
@[simp] theorem State.dropWork_lut (s : State) : (s.dropWork).lut = s.lut := rfl
@[simp] theorem State.dropWork_params (s : State) : (s.dropWork).params = s.params := rfl
@[simp] theorem State.dropWork_work (s : State) : (s.dropWork).work = Work.none := rfl
@[simp] theorem State.dropWork_input (s : State) : (s.dropWork).input = s.input := rfl

/-! ## endFrame -/

@[simp] theorem State.endFrame_buf (s : State) (v : Verdict) (f : Frame) : (s.endFrame v f).buf = s.buf := rfl
@[simp] theorem State.endFrame_last (s : State) (v : Verdict) (f : Frame) : (s.endFrame v f).last = v.lastAfter s.last := rfl
@[simp] theorem State.endFrame_out (s : State) (v : Verdict) (f : Frame) : (s.endFrame v f).out = s.out ++ (v.record f).toList := rfl
@[simp] theorem State.endFrame_lut (s : State) (v : Verdict) (f : Frame) : (s.endFrame v f).lut = s.lut := rfl
@[simp] theorem State.endFrame_params (s : State) (v : Verdict) (f : Frame) : (s.endFrame v f).params = s.params := rfl
@[simp] theorem State.endFrame_work (s : State) (v : Verdict) (f : Frame) : (s.endFrame v f).work = s.work := rfl
@[simp] theorem State.endFrame_input (s : State) (v : Verdict) (f : Frame) : (s.endFrame v f).input = s.input := rfl

/-! ## reset -/

@[simp] theorem State.reset_buf : State.reset.buf = [] := rfl
@[simp] theorem State.reset_last : State.reset.last = none := rfl
@[simp] theorem State.reset_out : State.reset.out = [] := rfl
@[simp] theorem State.reset_lut : State.reset.lut = Config.lutReference := rfl
@[simp] theorem State.reset_params : State.reset.params = Config.defaults := rfl
@[simp] theorem State.reset_work : State.reset.work = Work.none := rfl
@[simp] theorem State.reset_input : State.reset.input = [] := rfl

end Sys2Proof.Machine
end

