-- ==== Sys2Proof/Laws/Ops.lean ====
section
/-! SUPPORT. What the shared operations can do, said once: the look-up, the outcome of a frame, the per-frame procedure,
the fetch and the step. -/

namespace Sys2Proof.Machine

/-! ## Look-up -/

/-- A hit comes from a row of the table with that id, name and decoder. -/
theorem lookLut_hit {lut : Lut} {fid : Byte} {name : NameTag} {dec : Option Decoder}
    (h : lookLut lut fid = .hit name dec) : ∃ r ∈ lut, r.fid = fid ∧ r.name = name ∧ r.dec = dec := by
  unfold lookLut at h
  split at h
  · rename_i r hr
    cases h
    exact ⟨r, List.mem_of_find?_eq_some hr, by simpa using List.find?_some hr, rfl, rfl⟩
  · cases h

/-- A miss means that no row has the id. -/
theorem lookLut_miss {lut : Lut} {fid : Byte} (h : lookLut lut fid = .miss) : ∀ r ∈ lut, r.fid ≠ fid := by
  unfold lookLut at h
  split at h
  · cases h
  · rename_i hn
    simpa using hn

/-! ## The outcome of a frame (R187), one lemma per priority -/

@[simp] theorem frameVerdict_gate {pr : Params} {last : Option NameTag} {look : Look} {f : Frame} (h : f.length < 4) :
    frameVerdict pr last look f = .malformedGate := by
  simp [frameVerdict, h]

theorem frameVerdict_miss {pr : Params} {last : Option NameTag} {f : Frame} (h : 4 ≤ f.length) :
    frameVerdict pr last .miss f = .unknown := by
  have : ¬ f.length < 4 := by omega
  simp [frameVerdict, this]

theorem frameVerdict_suppressed {pr : Params} {last : Option NameTag} {name : NameTag} {dec : Option Decoder} {f : Frame}
    (h : 4 ≤ f.length) (hl : last = some name) : frameVerdict pr last (.hit name dec) f = .suppressed := by
  have : ¬ f.length < 4 := by omega
  simp [frameVerdict, this, hl]

theorem frameVerdict_noDecoder {pr : Params} {last : Option NameTag} {name : NameTag} {f : Frame}
    (h : 4 ≤ f.length) (hl : last ≠ some name) : frameVerdict pr last (.hit name none) f = .noDecoder name := by
  have : ¬ f.length < 4 := by omega
  simp [frameVerdict, this, hl]

/-- An identified, unsuppressed frame with a decoder has the outcome its decode gives. -/
theorem frameVerdict_decode {pr : Params} {last : Option NameTag} {name : NameTag} {d : Decoder} {f : Frame}
    (h : 4 ≤ f.length) (hl : last ≠ some name) :
    frameVerdict pr last (.hit name (some d)) f =
      (match decodePayload pr d (framePayload f) with
        | .ok m => .decoded name m
        | .error .shortPayload => .short name
        | .error .malformed => .malformedDecode name) := by
  have : ¬ f.length < 4 := by omega
  cases hd : decodePayload pr d (framePayload f) with
  | ok m => simp [frameVerdict, this, hl, hd]
  | error e => cases e <;> simp [frameVerdict, this, hl, hd]

/-! ## The per-frame procedure -/

@[simp] theorem State.runFrame_buf (s : State) (look : Look) (f : Frame) : (s.runFrame look f).buf = s.buf := rfl
@[simp] theorem State.runFrame_lut (s : State) (look : Look) (f : Frame) : (s.runFrame look f).lut = s.lut := rfl
@[simp] theorem State.runFrame_params (s : State) (look : Look) (f : Frame) :
    (s.runFrame look f).params = s.params := rfl
@[simp] theorem State.runFrame_work (s : State) (look : Look) (f : Frame) : (s.runFrame look f).work = s.work := rfl
@[simp] theorem State.runFrame_input (s : State) (look : Look) (f : Frame) : (s.runFrame look f).input = s.input := rfl
@[simp] theorem State.processFrame_buf (s : State) (f : Frame) : (s.processFrame f).buf = s.buf := rfl
@[simp] theorem State.processFrame_lut (s : State) (f : Frame) : (s.processFrame f).lut = s.lut := rfl
@[simp] theorem State.processFrame_params (s : State) (f : Frame) : (s.processFrame f).params = s.params := rfl
@[simp] theorem State.processFrame_work (s : State) (f : Frame) : (s.processFrame f).work = s.work := rfl
@[simp] theorem State.processFrame_input (s : State) (f : Frame) : (s.processFrame f).input = s.input := rfl

/-- Below the length gate: one malformed record. -/
theorem State.runFrame_gate (s : State) (look : Look) {f : Frame} (h : f.length < 4) :
    s.runFrame look f = { s with out := s.out ++ [.malformed f] } := by
  simp [State.runFrame, State.endFrame, h, Verdict.lastAfter, Verdict.record]

/-- A miss: one record, LAST untouched. -/
theorem State.runFrame_miss (s : State) {f : Frame} (h : 4 ≤ f.length) :
    s.runFrame .miss f = { s with out := s.out ++ [.frame (frameRec f none .unknownFunctionId none)] } := by
  simp [State.runFrame, State.endFrame, frameVerdict_miss h, Verdict.lastAfter, Verdict.record]

/-- A repeat: the state is as before. -/
theorem State.runFrame_suppressed (s : State) {name : NameTag} {dec : Option Decoder} {f : Frame} (h : 4 ≤ f.length)
    (hl : s.last = some name) : s.runFrame (.hit name dec) f = s := by
  simp [State.runFrame, State.endFrame, frameVerdict_suppressed h hl, Verdict.lastAfter, Verdict.record]

/-- No decoder. -/
theorem State.runFrame_noDecoder (s : State) {name : NameTag} {f : Frame} (h : 4 ≤ f.length)
    (hl : s.last ≠ some name) :
    s.runFrame (.hit name none) f = passed s name (.frame (frameRec f (some name) .noDecoder none)) := by
  simp [State.runFrame, State.endFrame, frameVerdict_noDecoder h hl, Verdict.lastAfter, Verdict.record, passed]

/-- A decoder: LAST takes the name, and the record is the one the decode gives. -/
theorem State.runFrame_decode (s : State) {name : NameTag} {d : Decoder} {f : Frame} (h : 4 ≤ f.length)
    (hl : s.last ≠ some name) :
    s.runFrame (.hit name (some d)) f = passed s name
      (match decodePayload s.params d (framePayload f) with
        | .ok m => .frame (frameRec f (some name) .decoded (some m))
        | .error .shortPayload => .frame (frameRec f (some name) .shortPayload none)
        | .error .malformed => .malformed f) := by
  simp only [State.runFrame, State.endFrame, frameVerdict_decode h hl, passed]
  split <;> simp [Verdict.lastAfter, Verdict.record]

/-- Everything the per-frame procedure can do: it changes LAST and OUT only, OUT by at most one record, and LAST is as
before or the name of the hit. -/
theorem State.runFrame_cases (s : State) (look : Look) (f : Frame) :
    ∃ (last : Option NameTag) (rs : List Record),
      s.runFrame look f = { s with last := last, out := s.out ++ rs } ∧ rs.length ≤ 1 ∧
      (last = s.last ∨ ∃ name dec, look = .hit name dec ∧ last = some name) := by
  refine ⟨_, _, rfl, ?_, ?_⟩
  · cases frameVerdict s.params s.last look f <;> simp [Verdict.record]
  · by_cases h : f.length < 4
    · simp [h, Verdict.lastAfter]
    · cases look with
      | miss => simp [frameVerdict, h, Verdict.lastAfter]
      | hit name dec =>
        by_cases hl : s.last = some name
        · simp [frameVerdict, h, hl, Verdict.lastAfter]
        · cases dec with
          | none => simp [frameVerdict, h, hl, Verdict.lastAfter]
          | some d =>
            rw [frameVerdict_decode (by omega) hl]
            split <;> simp [Verdict.lastAfter]

/-! ## Codes (R181) -/

/-- The record an outcome emits carries the outcome's code. -/
theorem Verdict.record_code {v : Verdict} {f : Frame} {r : Record} (h : v.record f = some r) : r.code = v.code := by
  cases v <;> cases h <;> rfl

/-- Only Suppressed emits no record. -/
theorem Verdict.record_eq_none_iff {v : Verdict} {f : Frame} : v.record f = none ↔ v = .suppressed := by
  cases v <;> simp [Verdict.record]

/-! ## The Integer Field Reader -/

/-- A read whose bytes all lie inside the window answers a value. -/
theorem rd_ok_of_le {w : List Byte} {off cnt : Nat} {e : Endian} (h : off + cnt ≤ w.length) :
    rd w off cnt e = .ok (if w.length ≤ off + 1 then 0 else rdSum w off cnt e) := by
  by_cases hg : off + 1 ≥ w.length
  · simp [rd, hg]
  · have : ¬ off + cnt > w.length := by omega
    simp [rd, hg, this]

/-- An integer of mode 2 whose bytes all lie inside the payload is the big-endian sum of them, a single byte at the
payload's end included. -/
theorem readCiField_ok_of_le {p : List Byte} {fd : CiField} (h : fd.off + fd.cnt ≤ p.length) :
    readCiField p fd = .ok (rdSum p fd.off fd.cnt .be) := by
  by_cases h1 : fd.cnt = 1
  · have hi : fd.off < p.length := by omega
    simp [readCiField, h1, byteAt, hi, rdSum, Except.map]
  · rw [readCiField, if_neg h1, rd_ok_of_le h]
    by_cases hg : p.length ≤ fd.off + 1
    · have h0 : fd.cnt = 0 := by omega
      simp [hg, h0, rdSum]
    · simp [hg]

/-- Every byte an integer of mode 2 reads lies inside the payload. -/
theorem ciFits_iff {p : List Byte} {fds : List CiField} :
    ciFits p fds = true ↔ ∀ fd ∈ fds, fd.off + fd.cnt ≤ p.length := by
  simp [ciFits]

/-! ## The full buffer -/

/-- When APPEND finds BUF full. -/
theorem State.bufFull_iff (s : State) :
    s.bufFull = true ↔ ∃ c, s.params.bufCap = some c ∧ c ≤ s.buf.length := by
  unfold State.bufFull
  split <;> simp_all

/-! ## Fetch and step -/

@[simp] theorem State.fetch_nil {s : State} (h : s.input = []) : s.fetch = (.noData, s) := by
  simp [State.fetch, h]

@[simp] theorem State.fetch_cons {s : State} {x : Stimulus} {rest : List Stimulus} (h : s.input = x :: rest) :
    s.fetch = (x, { s with input := rest }) := by
  simp [State.fetch, h]

/-- Everything a step that answers a next state has done. -/
theorem step_next {s t : State} (h : step s = .next t) :
    ∃ u, exec (decodeStimulus s.fetch.1) s.fetch.2 = .next u ∧ t = u.dropWork := by
  unfold step at h
  split at h
  · rename_i u hu
    exact ⟨u, hu, by cases h; rfl⟩
  · cases h
  · cases h

end Sys2Proof.Machine
end

