-- ==== Sys2Proof/Laws/Memory.lean ====
section
/-! SUPPORT. The memory's canonical form holds at reset and every memory operation keeps it. -/

namespace Sys2Proof.Machine

theorem Memory.wf_reset : Memory.wf State.reset = true := by decide

/-- The canonical form is the LUT's alone. -/
theorem Memory.wf_of_lut {s t : State} (h : t.lut = s.lut) : Memory.wf t = Memory.wf s := by
  simp [Memory.wf, h]

@[simp] theorem Memory.wf_appendByte (s : State) (b : Byte) : Memory.wf (s.appendByte b) = Memory.wf s := rfl
@[simp] theorem Memory.wf_restartBuf (s : State) : Memory.wf s.restartBuf = Memory.wf s := rfl
@[simp] theorem Memory.wf_endFrame (s : State) (v : Verdict) (f : Frame) :
    Memory.wf (s.endFrame v f) = Memory.wf s := rfl
@[simp] theorem Memory.wf_processFrame (s : State) (f : Frame) : Memory.wf (s.processFrame f) = Memory.wf s := rfl

end Sys2Proof.Machine
end

