-- ==== Sys2Proof/Laws/Step.lean ====
section
/-! SUPPORT. The step and the run, one lemma per outcome. -/

namespace Sys2Proof.Machine

/-- What a step with a waiting stimulus is. -/
theorem step_of_stimulus {s : State} {x : Stimulus} {rest : List Stimulus} (h : s.input = x :: rest) :
    step s =
      (match exec (decodeStimulus x) { s with input := rest } with
        | .next t => .next t.dropWork
        | .fault r => .fault r
        | .refused r => .refused r) := by
  cases hx : exec (decodeStimulus x) { s with input := rest } <;> simp only [step, State.fetch_cons h, hx]

/-- DELIM as one conditional. -/
theorem exec_delim (s : State) :
    exec .delim s = .next (if s.buf = [] then s.restartBuf else s.restartBuf.processFrame s.buf) := by
  by_cases h : s.buf = []
  · simp [exec, execDelim, h]
  · have : s.buf.length > 0 := List.length_pos_of_ne_nil h
    simp only [exec, execDelim, if_pos this, if_neg h]

/-- A run of no steps. -/
theorem run_zero (s : State) : Host.Core.run Sys2Proof.core 0 s = .next s := rfl

/-- A run whose first step answers a next state. -/
theorem run_next {k : Nat} {s t : State} (h : step s = .next t) :
    Host.Core.run Sys2Proof.core (k + 1) s = Host.Core.run Sys2Proof.core k t := by
  have general : ∀ (M : Host.Core) (k : Nat) (s t : M.State), M.step s = .next t → M.run (k + 1) s = M.run k t := by
    intro M k s t h
    simp [Host.Core.run, h]
  exact general _ _ _ _ h

/-- A run whose first step faults. -/
theorem run_fault {k : Nat} {s : State} {r : Fault} (h : step s = .fault r) :
    Host.Core.run Sys2Proof.core (k + 1) s = .fault r := by
  have general : ∀ (M : Host.Core) (k : Nat) (s : M.State) r, M.step s = .fault r → M.run (k + 1) s = .fault r := by
    intro M k s r h
    simp [Host.Core.run, h]
  exact general _ _ _ _ h

/-- A run whose first step is refused. -/
theorem run_refused {k : Nat} {s : State} {r : Refusal} (h : step s = .refused r) :
    Host.Core.run Sys2Proof.core (k + 1) s = .refused r := by
  have general : ∀ (M : Host.Core) (k : Nat) (s : M.State) r, M.step s = .refused r →
      M.run (k + 1) s = .refused r := by
    intro M k s r h
    simp [Host.Core.run, h]
  exact general _ _ _ _ h

end Sys2Proof.Machine
end

