-- ==== Sys2Proof/Tests/Slice0.lean ====
section
/-! SUPPORT. Tests: a decoded word for every operation, the refusals of WellFormed, the vectors of
spec/95_test_vectors.md (named in each docstring), and for every statement with hypotheses a state and operands that meet
them. -/

namespace Sys2Proof.Tests

open Sys2Proof.Machine

/-! ## Helpers -/

/-- A LUT that routes an id to every decoder; the reference table allows no more than two. -/
def lutOpen : Lut :=
  [⟨0x1D#8, ⟨29⟩, some .radarFront⟩, ⟨0x1E#8, ⟨30⟩, some .radarRear⟩, ⟨0x1F#8, ⟨31⟩, some .oilElec⟩,
   ⟨0x20#8, ⟨32⟩, some .basicFly⟩, ⟨0x21#8, ⟨33⟩, some .carDoor⟩, ⟨0x22#8, ⟨34⟩, some .acState⟩,
   ⟨0x23#8, ⟨35⟩, some .travelOil⟩, ⟨0x24#8, ⟨36⟩, some .swcAngle⟩, ⟨0x25#8, ⟨37⟩, some .tpms⟩,
   ⟨0x26#8, ⟨38⟩, some .carInfo⟩] ++
  [⟨0x27#8, ⟨39⟩, none⟩, ⟨0x28#8, ⟨40⟩, some .tpms⟩, ⟨0x82#8, ⟨130⟩, some .dataRequest⟩,
   ⟨0x90#8, ⟨144⟩, some .acSetting⟩, ⟨0xC0#8, ⟨192⟩, none⟩, ⟨0xC8#8, ⟨200⟩, none⟩]

/-- The machine with that LUT. -/
def open0 : State := { State.reset with lut := lutOpen }

/-- LAST holds the name of id 29. -/
def after29 : State := { State.reset with last := some ⟨29⟩ }

/-- A finite build with these bytes in BUF. -/
def capped (cap : Nat) (buf : List Byte) : State :=
  { State.reset with buf := buf, params := { Config.defaults with bufCap := some cap } }

/-- A build with ascending flag order. -/
def ascending : State := { State.reset with params := { Config.defaults with flagOrder := .ascending } }

def nextOf : Host.Outcome State Fault Refusal → Option State
  | .next s => some s
  | _ => none

def faultOf : Host.Outcome State Fault Refusal → Option Fault
  | .fault r => some r
  | _ => none

/-- The records of the state after, and its LAST. -/
def ends (o : Host.Outcome State Fault Refusal) : Option (List Record × Option NameTag) :=
  (nextOf o).map fun s => (s.out, s.last)

def workOf (o : Host.Outcome State Fault Refusal) : Option Work := (nextOf o).map (·.work)

/-- The message of the one record. -/
def msgOf (o : Host.Outcome State Fault Refusal) : Option Message :=
  match nextOf o with
  | some s =>
    match s.out with
    | [.frame r] => r.msg
    | _ => none
  | none => none

/-- One step that releases this frame. -/
def release (s : State) (f : Frame) : Host.Outcome State Fault Refusal :=
  step { s with buf := f, input := [.byte 0x2E#8] }

/-- The frame of the source's Scenario 1 (vector S1, V1). -/
def f29 : Frame := [0x2E#8, 0x1D#8, 4#8, 1#8, 2#8, 3#8, 4#8, 0xD4#8]

/-- The frame of the source's Scenario 2 (vector S2, V2). -/
def f37 : Frame := [0x2E#8, 0x25#8, 6#8, 1#8, 0x64#8, 0x64#8, 0x64#8, 0x64#8, 0x64#8, 0xDF#8]

/-- A frame with this payload, for operations that carry their look-up; its checksum byte is 0, which steers nothing. -/
def framed (fid : Byte) (p : List Byte) : Frame := badFrame fid p 0#8

/-! ## Decoding: a word of every operation, written out from its encoding -/

theorem test_decode_delim : decode lutOpen (.stim (.byte 0b00101110#8)) = .ok .delim := by decide
theorem test_decode_append : decode lutOpen (.stim (.byte 0b00101111#8)) = .ok (.append 0x2F#8) := by decide
theorem test_decode_noData : decode lutOpen (.stim .noData) = .ok .noData := by decide
theorem test_decode_reset : decode lutOpen (.stim .reset) = .ok .reset := by decide
theorem test_decode_checkMin : decode lutOpen (.stage .checkMin [0x2E#8]) = .ok (.checkMin [0x2E#8]) := by decide
theorem test_decode_parseHeader : decode lutOpen (.stage .parseHeader f29) = .ok (.parseHeader f29) := by decide
theorem test_decode_slicePayload : decode lutOpen (.stage .slicePayload f29) = .ok (.slicePayload f29) := by decide
theorem test_decode_cksRx : decode lutOpen (.stage .cksRx f29) = .ok (.cksRx f29) := by decide
theorem test_decode_cksCalc : decode lutOpen (.stage .cksCalc f29) = .ok (.cksCalc f29) := by decide
theorem test_decode_cksCompare : decode lutOpen (.stage .cksCompare f29) = .ok (.cksCompare f29) := by decide
theorem test_decode_lookup : decode lutOpen (.stage .lookup f29) = .ok (.lookup f29) := by decide
theorem test_decode_suppressTest : decode lutOpen (.stage .suppressTest f29) = .ok (.suppressTest f29) := by decide
theorem test_decode_suppressUpdate :
    decode lutOpen (.stage .suppressUpdate f29) = .ok (.suppressUpdate f29) := by decide
theorem test_decode_dispatch : decode lutOpen (.stage .dispatch f29) = .ok (.dispatch f29) := by decide
theorem test_decode_decode : decode lutOpen (.stage .decode f29) = .ok (.decode f29) := by decide
theorem test_decode_processFrame : decode lutOpen (.stage .processFrame f29) = .ok (.processFrame f29) := by decide
theorem test_decode_radarFront :
    decode lutOpen (.candidate [0x2E#8, 0b00011101#8, 0#8, 0xE2#8]) =
      .ok (.radarFront ⟨29⟩ [0x2E#8, 29#8, 0#8, 0xE2#8]) := by decide
theorem test_decode_tpms :
    decode lutOpen (.candidate [0x2E#8, 0b00100101#8, 0#8, 0xDA#8]) =
      .ok (.tpms ⟨37⟩ [0x2E#8, 37#8, 0#8, 0xDA#8]) := by decide
theorem test_decode_req130 :
    decode Config.lutReference (.candidate [0x2E#8, 0b10000010#8, 0#8, 0x7D#8]) =
      .ok (.req130 ⟨130⟩ none [0x2E#8, 130#8, 0#8, 0x7D#8]) := by decide
theorem test_decode_req144 :
    decode Config.lutReference (.candidate [0x2E#8, 0b10010000#8, 0#8, 0x6F#8]) =
      .ok (.req144 ⟨144⟩ none [0x2E#8, 144#8, 0#8, 0x6F#8]) := by decide
theorem test_decode_req192 :
    decode lutOpen (.candidate [0x2E#8, 0b11000000#8, 0#8, 0x3F#8]) =
      .ok (.req192 ⟨192⟩ none [0x2E#8, 192#8, 0#8, 0x3F#8]) := by decide
theorem test_decode_req200 :
    decode lutOpen (.candidate [0x2E#8, 0b11001000#8, 0#8, 0x37#8]) =
      .ok (.req200 ⟨200⟩ none [0x2E#8, 200#8, 0#8, 0x37#8]) := by decide
theorem test_decode_radarRear :
    decode lutOpen (.candidate [0x2E#8, 0x1E#8, 0#8, 0#8]) = .ok (.radarRear ⟨30⟩ [0x2E#8, 30#8, 0#8, 0#8]) := by decide
theorem test_decode_oilElec :
    decode lutOpen (.candidate [0x2E#8, 0x1F#8, 0#8, 0#8]) = .ok (.oilElec ⟨31⟩ [0x2E#8, 31#8, 0#8, 0#8]) := by decide
theorem test_decode_basicFly :
    decode lutOpen (.candidate [0x2E#8, 0x20#8, 0#8, 0#8]) = .ok (.basicFly ⟨32⟩ [0x2E#8, 32#8, 0#8, 0#8]) := by decide
theorem test_decode_carDoor :
    decode lutOpen (.candidate [0x2E#8, 0x21#8, 0#8, 0#8]) = .ok (.carDoor ⟨33⟩ [0x2E#8, 33#8, 0#8, 0#8]) := by decide
theorem test_decode_acState :
    decode lutOpen (.candidate [0x2E#8, 0x22#8, 0#8, 0#8]) = .ok (.acState ⟨34⟩ [0x2E#8, 34#8, 0#8, 0#8]) := by decide
theorem test_decode_travelOil :
    decode lutOpen (.candidate [0x2E#8, 0x23#8, 0#8, 0#8]) = .ok (.travelOil ⟨35⟩ [0x2E#8, 35#8, 0#8, 0#8]) := by decide
theorem test_decode_swcAngle :
    decode lutOpen (.candidate [0x2E#8, 0x24#8, 0#8, 0#8]) = .ok (.swcAngle ⟨36⟩ [0x2E#8, 36#8, 0#8, 0#8]) := by decide
theorem test_decode_carInfo :
    decode lutOpen (.candidate [0x2E#8, 0x26#8, 0#8, 0#8]) = .ok (.carInfo ⟨38⟩ [0x2E#8, 38#8, 0#8, 0#8]) := by decide
theorem test_decode_dataRequest :
    decode lutOpen (.candidate [0x2E#8, 0x82#8, 0#8, 0#8]) =
      .ok (.dataRequest ⟨130⟩ [0x2E#8, 130#8, 0#8, 0#8]) := by decide
theorem test_decode_acSetting :
    decode lutOpen (.candidate [0x2E#8, 0x90#8, 0#8, 0#8]) =
      .ok (.acSetting ⟨144⟩ [0x2E#8, 144#8, 0#8, 0#8]) := by decide
/-- The neighbour of 29 below (vector D9). -/
theorem test_decode_unknownFid :
    decode lutOpen (.candidate [0x2E#8, 0x1C#8, 0#8, 0xE3#8]) =
      .ok (.unknownFid [0x2E#8, 28#8, 0#8, 0xE3#8]) := by decide
theorem test_decode_fid46 :
    decode lutOpen (.candidate [0x41#8, 0x2E#8, 0#8, 0xD1#8]) =
      .ok (.fid46 .miss [0x41#8, 46#8, 0#8, 0xD1#8]) := by decide
theorem test_decode_rdle : decode lutOpen (.reader .le [1#8, 2#8] 0 2) = .ok (.rdle [1#8, 2#8] 0 2) := by decide
theorem test_decode_rdbe : decode lutOpen (.reader .be [1#8, 2#8] 0 2) = .ok (.rdbe [1#8, 2#8] 0 2) := by decide
/-- An identified id with no row of its own is the row of every candidate (entry 9). -/
theorem test_decode_no_own_row :
    decode lutOpen (.candidate [0x2E#8, 0x27#8, 0#8, 0#8]) = .ok (.processFrame [0x2E#8, 39#8, 0#8, 0#8]) ∧
    decode lutOpen (.candidate [0x2E#8, 0x28#8, 0#8, 0#8]) = .ok (.processFrame [0x2E#8, 40#8, 0#8, 0#8]) := by decide
theorem test_decode_refuses :
    decode lutOpen (.candidate [0x2E#8, 0x1D#8, 0#8]) = .error .frameTooShort ∧
    decode lutOpen (.stage .parseHeader [0x2E#8, 0x1D#8, 0#8]) = .error .frameTooShort ∧
    decode lutOpen (.stage .checkMin []) = .error .emptyFrame := by decide

/-! ## Words of the opcode table -/

theorem test_tableWord :
    decodeTableWord 8 0x2E = some .delim ∧ decodeTableWord 8 0x2F = some (.append 0x2F#8) ∧
    decodeTableWord 0 0 = some .noData ∧
    decodeTableWord 8 0x1D = some (.radarFront ⟨29⟩ [0x2E#8, 0x1D#8, 0#8, 0#8]) ∧
    decodeTableWord 8 0xC8 = some (.req200 ⟨200⟩ none [0x2E#8, 0xC8#8, 0#8, 0#8]) ∧
    decodeTableWord 32 0xDA00252E = some (.processFrame [0x2E#8, 0x25#8, 0#8, 0xDA#8]) := by decide
/-- The next step runs the placed word. -/
theorem test_withFetchWord :
    ends (step (State.reset.withFetchWord 8 0x82)) =
      ends (exec (.req130 ⟨130⟩ none [0x2E#8, 0x82#8, 0#8, 0#8]) State.reset) ∧
    (nextOf (step (State.reset.withFetchWord 8 0x2F))).map (·.buf) = some [0x2F#8] := by decide

/-! ## WellFormed: one ill-formed term for each check -/

theorem test_wf_append : WellFormed lutOpen (.append 0x2E#8) = false := by decide
theorem test_wf_checkMin : WellFormed lutOpen (.checkMin []) = false := by decide
theorem test_wf_processFrame : WellFormed lutOpen (.processFrame []) = false := by decide
theorem test_wf_stages :
    WellFormed lutOpen (.parseHeader [1#8, 2#8, 3#8]) = false ∧ WellFormed lutOpen (.slicePayload [1#8]) = false ∧
    WellFormed lutOpen (.cksRx []) = false ∧ WellFormed lutOpen (.cksCalc [1#8, 2#8, 3#8]) = false ∧
    WellFormed lutOpen (.cksCompare []) = false ∧ WellFormed lutOpen (.lookup [1#8]) = false ∧
    WellFormed lutOpen (.suppressTest [1#8]) = false ∧ WellFormed lutOpen (.suppressUpdate [1#8]) = false ∧
    WellFormed lutOpen (.dispatch [1#8]) = false ∧ WellFormed lutOpen (.decode [1#8]) = false := by decide
/-- An id the row does not fix; an id the LUT routes elsewhere. -/
theorem test_wf_fixed_ids :
    WellFormed lutOpen (.radarFront ⟨29⟩ f37) = false ∧ WellFormed lutOpen (.tpms ⟨40⟩ (framed 0x28#8 [])) = false ∧
    WellFormed lutOpen (.req130 ⟨130⟩ none (framed 0x82#8 [])) = false ∧
    WellFormed lutOpen (.req144 ⟨144⟩ (some .acSetting) (framed 0x90#8 [])) = false ∧
    WellFormed lutOpen (.req192 ⟨192⟩ none (framed 0xC8#8 [])) = false ∧
    WellFormed lutOpen (.req200 ⟨1⟩ none (framed 0xC8#8 [])) = false := by decide
theorem test_wf_routed :
    WellFormed lutOpen (.radarRear ⟨30⟩ (framed 0x1F#8 [])) = false ∧
    WellFormed lutOpen (.oilElec ⟨99⟩ (framed 0x1F#8 [])) = false ∧
    WellFormed lutOpen (.basicFly ⟨32⟩ [0x2E#8, 0x20#8, 0#8]) = false ∧
    WellFormed lutOpen (.carDoor ⟨33⟩ f29) = false ∧ WellFormed lutOpen (.acState ⟨34⟩ f29) = false ∧
    WellFormed lutOpen (.travelOil ⟨35⟩ f29) = false ∧ WellFormed lutOpen (.swcAngle ⟨36⟩ f29) = false ∧
    WellFormed lutOpen (.carInfo ⟨38⟩ f29) = false ∧
    WellFormed lutOpen (.dataRequest ⟨144⟩ (framed 0x90#8 [])) = false ∧
    WellFormed lutOpen (.acSetting ⟨130⟩ (framed 0x82#8 [])) = false ∧
    WellFormed lutOpen (.unknownFid f29) = false ∧ WellFormed lutOpen (.fid46 .miss f29) = false ∧
    WellFormed lutOpen (.fid46 (.hit ⟨46⟩ none) (framed 0x2E#8 [])) = false := by decide
/-- A LUT that is not sorted, that lacks a known id, that hits where no LUT may. -/
theorem test_wf_lut :
    lutSorted lutOpen.reverse = false ∧ lutConforms Config.lutReference.tail = false ∧
    lutConforms (⟨28#8, ⟨28⟩, none⟩ :: Config.lutReference) = false ∧
    lutSorted lutOpen = true ∧ lutConforms lutOpen = true := by decide
/-- A layout read past the minimum, equal unit keys, a buffer too small. -/
theorem test_wf_params :
    paramsConform { Config.defaults with mlBasicFly := 6 } = false ∧
    paramsConform { Config.defaults with mlTravelOil := 12 } = false ∧
    paramsConform { Config.defaults with bfKeyKm := 1#8 } = false ∧
    paramsConform { Config.defaults with bufCap := some 258 } = false ∧
    paramsConform { Config.defaults with bufCap := some 259 } = true := by decide

/-! ## Stream level -/

/-- A2, A4. -/
theorem test_delim :
    (nextOf (exec .delim State.reset)).map (fun s => (s.buf, s.out)) = some ([0x2E#8], []) ∧
    (nextOf (exec .delim { State.reset with buf := [0#8] })).map (fun s => (s.buf, s.out)) =
      some ([0x2E#8], [.malformed [0#8]]) := by decide
/-- A9: the whole frame of Scenario 1, released. -/
theorem test_delim_releases :
    ends (release State.reset f29) = some ([.frame
      { start := 0x2E#8, fid := 29#8, name := some ⟨29⟩, n := 4#8, payload := [1#8, 2#8, 3#8, 4#8], cks := 0xD4#8
        cksOk := true, status := .decoded, msg := some (.radarFront ⟨1, 4, 7, 10⟩) }], some ⟨29⟩) := by decide
/-- A6, A10. -/
theorem test_append :
    (nextOf (exec (.append 0x1D#8) { State.reset with buf := [0x2E#8] })).map (fun s => (s.buf, s.out)) =
      some ([0x2E#8, 0x1D#8], []) ∧
    (nextOf (step { State.reset with buf := [0x2E#8, 0xFF#8], input := [.byte 0xFF#8] })).map (·.buf) =
      some [0x2E#8, 0xFF#8, 0xFF#8] := by decide
/-- R190: the build's last free place, and none. -/
theorem test_append_overflow :
    faultOf (exec (.append 7#8) (capped 2 [0x2E#8, 1#8])) = some .bufferOverflow ∧
    (nextOf (exec (.append 7#8) (capped 2 [0x2E#8]))).map (·.buf) = some [0x2E#8, 7#8] := by decide
/-- A8. -/
theorem test_noData : nextOf (step { State.reset with buf := f29, input := [.noData] }) =
    some { State.reset with buf := f29 } := by decide
/-- X11, R201. -/
theorem test_reset : nextOf (step { after29 with buf := f29, input := [.reset, .byte 1#8] }) =
    some { State.reset with input := [.byte 1#8] } := by decide

/-! ## Stages -/

/-- V13, V1. -/
theorem test_checkMin :
    ends (exec (.checkMin [0x2E#8, 0x1D#8, 0#8]) State.reset) = some ([.malformed [0x2E#8, 0x1D#8, 0#8]], none) ∧
    workOf (exec (.checkMin f29) State.reset) = some { Work.none with frame := some f29 } := by decide
/-- V16: the start byte is not tested. -/
theorem test_parseHeader :
    workOf (exec (.parseHeader [0x41#8, 0x1D#8, 4#8, 1#8, 2#8, 3#8, 4#8, 0xD4#8]) State.reset) =
      some { Work.none with start := some 0x41#8, fid := some 29#8, n := some 4#8 } := by decide
/-- V10: shorter than declared; V11: longer. -/
theorem test_slicePayload :
    (workOf (exec (.slicePayload [0x2E#8, 0x1D#8, 4#8, 1#8, 2#8, 0xDB#8]) State.reset)).map (·.payload) =
      some (some [1#8, 2#8, 0xDB#8]) ∧
    (workOf (exec (.slicePayload [0x2E#8, 0x1D#8, 2#8, 1#8, 2#8, 3#8, 4#8, 0xD6#8]) State.reset)).map (·.payload) =
      some (some [1#8, 2#8]) := by decide
/-- V12. -/
theorem test_cksRx :
    (workOf (exec (.cksRx [0x2E#8, 0x25#8, 6#8, 0xD4#8]) State.reset)).map (·.cksRx) = some (some 0xD4#8) := by decide
/-- V2: the sum wraps; V8. -/
theorem test_cksCalc :
    (workOf (exec (.cksCalc f37) State.reset)).map (·.cksCalc) = some (some 0xDF#8) ∧
    (workOf (exec (.cksCalc [0x2E#8, 0x1D#8, 4#8, 0x81#8, 2#8, 3#8, 4#8, 0xD4#8]) State.reset)).map (·.cksCalc) =
      some (some 0x54#8) := by decide
/-- V4, V7. -/
theorem test_cksCompare :
    (workOf (exec (.cksCompare [0x2E#8, 0#8, 0#8, 0xFF#8]) State.reset)).map (·.cksOk) = some (some true) ∧
    (workOf (exec (.cksCompare [0x2E#8, 0x1D#8, 4#8, 1#8, 2#8, 3#8, 4#8, 0xD5#8]) State.reset)).map (·.cksOk) =
      some (some false) := by decide
/-- S1, D10. -/
theorem test_lookup :
    (workOf (exec (.lookup f29) State.reset)).map (·.look) = some (some (.hit ⟨29⟩ (some .radarFront))) ∧
    (workOf (exec (.lookup [0x2E#8, 0x83#8, 0#8, 0x7C#8]) State.reset)).map (·.look) = some (some .miss) := by decide
/-- S9: the second A of `A A`, the B of `A B`. -/
theorem test_suppressTest :
    (workOf (exec (.suppressTest f29) after29)).map (·.drop) = some (some true) ∧
    (workOf (exec (.suppressTest f37) after29)).map (·.drop) = some (some false) := by decide
theorem test_suppressUpdate :
    (nextOf (exec (.suppressUpdate f37) after29)).map (·.last) = some (some ⟨37⟩) ∧
    (nextOf (exec (.suppressUpdate [0x2E#8, 7#8, 0#8, 0xF8#8]) after29)).map (·.last) = some (some ⟨29⟩) := by decide
theorem test_dispatch :
    (workOf (exec (.dispatch f29) State.reset)).map (·.routed) =
      some (some (.radarFront, [1#8, 2#8, 3#8, 4#8])) := by decide
/-- F3. -/
theorem test_decode :
    (workOf (exec (.decode (framed 0x1D#8 [1#8, 2#8, 3#8])) State.reset)).map (·.result) =
      some (some (.error .shortPayload)) := by decide
/-- D8: unit bits 11, LAST written; D7: LAST not. -/
theorem test_processFrame :
    ends (exec (.processFrame [0x2E#8, 0x25#8, 6#8, 3#8, 1#8, 2#8, 3#8, 4#8, 5#8, 0xC2#8]) State.reset) =
      some ([.malformed [0x2E#8, 0x25#8, 6#8, 3#8, 1#8, 2#8, 3#8, 4#8, 5#8, 0xC2#8]], some ⟨37⟩) ∧
    ends (exec (.processFrame [0x2E#8, 0x1D#8, 0#8]) after29) =
      some ([.malformed [0x2E#8, 0x1D#8, 0#8]], some ⟨29⟩) := by decide

/-! ## Function ids -/

/-- F2; and the repeat of S9. -/
theorem test_radarFront :
    msgOf (exec (.radarFront ⟨29⟩ (framed 0x1D#8 [4#8, 0#8, 9#8, 1#8])) State.reset) =
      some (.radarFront ⟨10, 0, 0, 1⟩) ∧
    nextOf (exec (.radarFront ⟨29⟩ (framed 0x1D#8 [4#8, 4#8, 4#8, 4#8])) after29) = some after29 := by decide
/-- F5. -/
theorem test_radarRear :
    msgOf (exec (.radarRear ⟨30⟩ (framed 0x1E#8 [1#8, 1#8, 2#8, 2#8, 0xD5#8])) open0) =
      some (.radarRear ⟨1, 1, 4, 4, ⟨true, true, true, 5⟩⟩) := by decide
/-- F8, F9. -/
theorem test_oilElec :
    msgOf (exec (.oilElec ⟨31⟩ (framed 0x1F#8 [0x85#8, 0x21#8])) open0) =
      some (.oilElectricity ⟨5, true, ⟨true, false, false, false, false, true⟩⟩) ∧
    msgOf (exec (.oilElec ⟨31⟩ (framed 0x1F#8 [0x7F#8, 0xC0#8])) open0) =
      some (.oilElectricity ⟨7, false, ⟨false, false, false, false, false, false⟩⟩) := by decide
/-- F27, F28. -/
theorem test_basicFly :
    msgOf (exec (.basicFly ⟨32⟩ (framed 0x20#8 [1#8, 0xF4#8, 0#8, 0x3C#8, 0x30#8, 0x39#8, 2#8])) open0) =
      some (.basicFly ⟨mkRat 50 1, 60, 12345, .km⟩) ∧
    msgOf (exec (.basicFly ⟨32⟩ (framed 0x20#8 [0#8, 1#8, 0#8, 0#8, 0xFF#8, 0xFF#8, 9#8])) open0) =
      some (.basicFly ⟨mkRat 1 10, 0, 65535, .unknown 9#8⟩) := by decide
/-- F10, and the same bytes in the other flag order. -/
theorem test_carDoor :
    msgOf (exec (.carDoor ⟨33⟩ (framed 0x21#8 [0x88#8, 0xC0#8])) open0) =
      some (.carDoor ⟨true, false, false, false, true, true, 2⟩) ∧
    msgOf (exec (.carDoor ⟨33⟩ (framed 0x21#8 [0x80#8, 0x20#8])) ascending) =
      some (.carDoor ⟨false, false, false, false, true, false, 1⟩) := by decide
/-- F12 (Scenario 4): switch, auto-defog, the three temperatures. -/
theorem test_acState :
    (match msgOf (exec (.acState ⟨34⟩ (framed 0x22#8 [0x81#8, 0#8, 0x28#8, 0#8, 0#8, 0#8, 0#8, 0#8])) open0) with
      | some (.acState m) =>
        m.acSwitch = true ∧ m.autoDefog = true ∧ m.leftSideTemperature = .degC (mkRat 80 1) ∧ m.tempByte3 = .low
      | _ => False) := ⟨by decide, by decide, by decide, by decide⟩
/-- F13: Fahrenheit, the sentinel, fan speeds and seat heat. -/
theorem test_acState_fahrenheit :
    (match msgOf (exec (.acState ⟨34⟩
        (framed 0x22#8 [0x10#8, 0xEF#8, 0x0A#8, 0x1F#8, 0x50#8, 0x0B#8, 0xFF#8, 5#8])) open0) with
      | some (.acState m) =>
        m.tempByte3 = .degF 31 ∧ m.tempByte6 = .high ∧ m.fanSpeed = 15 ∧
        (m.leftSeatHeat, m.rightSeatHeat, m.rearFanSpeed) = (3, 2, 5) ∧ m.backWindowDefog = true
      | _ => False) := ⟨by decide, by decide, by decide, by decide, by decide⟩
/-- F18: the sentinels and the alarm. -/
theorem test_tpms :
    msgOf (exec (.tpms ⟨37⟩ (framed 0x25#8 [0x41#8, 0#8, 0xFF#8, 0x0A#8, 0x14#8, 0x1E#8])) State.reset) =
      some (.tpms ⟨1, mkRat 1 1, true, ⟨3, 3, 3, 3⟩, ⟨mkRat (-1) 1, mkRat (-1) 1, mkRat 10 1, mkRat 20 1⟩,
        mkRat 30 1⟩) := by decide
/-- F21: the scale 1/10. -/
theorem test_tpms_tenths :
    msgOf (exec (.tpms ⟨37⟩ (framed 0x25#8 [0#8, 1#8, 0xFE#8, 0xFF#8, 0#8, 0x0B#8])) State.reset) =
      some (.tpms ⟨2, mkRat 1 10, false, ⟨0, 0, 0, 0⟩, ⟨mkRat 1 10, mkRat 254 10, mkRat (-1) 1, mkRat (-1) 1⟩,
        mkRat 11 10⟩) := by decide
/-- F29: the six figures. -/
theorem test_travelOil :
    (match msgOf (exec (.travelOil ⟨35⟩
        (framed 0x23#8 [9#8, 0#8, 0x7B#8, 0#8, 0#8, 0xFF#8, 0xFF#8, 0#8, 1#8, 0#8, 0x0A#8, 3#8, 0xE8#8])) open0) with
      | some (.travelOil m) =>
        m.consumption = ⟨mkRat 123 10, mkRat 0 1, mkRat 65535 10, mkRat 1 10, mkRat 1 1, mkRat 100 1⟩
      | _ => False) := by
  show (_ : Six Rat) = _
  decide
/-- F24 (Scenario 3), F25. -/
theorem test_swcAngle :
    msgOf (exec (.swcAngle ⟨36⟩ (framed 0x24#8 [0xFF#8, 0x0F#8])) open0) = some (.swcAngle (-4095)) ∧
    msgOf (exec (.swcAngle ⟨36⟩ (framed 0x24#8 [0#8, 8#8])) open0) = some (.swcAngle (-2048)) := by decide
/-- F30, F31. -/
theorem test_carInfo :
    msgOf (exec (.carInfo ⟨38⟩ (framed 0x26#8 [4#8])) open0) = some (.carInfoUnknownMode 4#8) ∧
    ends (exec (.carInfo ⟨38⟩ (framed 0x26#8 [])) open0) = some ([.frame
      { start := 0x2E#8, fid := 38#8, name := some ⟨38⟩, n := 0#8, payload := [], cks := 0#8, cksOk := false
        status := .shortPayload, msg := none }], some ⟨38⟩) := by decide
/-- R107, R140 under a layout of one 2-byte integer × 0.1: read, too short, and ShortPayload from the layout itself;
R111: a single byte at the payload's end is not guarded. -/
theorem test_carInfo_mode2 :
    decodeCiMode2 [2#8, 1#8, 0x2C#8] (some [⟨⟨1⟩, 1, 2, .tenth⟩]) =
      .ok (.carInfoMode2 [(⟨1⟩, .number (mkRat 300 10))]) ∧
    decodeCiMode2 [2#8, 7#8] (some [⟨⟨1⟩, 1, 1, .one⟩]) = .ok (.carInfoMode2 [(⟨1⟩, .number (mkRat 7 1))]) ∧
    decodeCiMode2 [2#8, 1#8] (some [⟨⟨1⟩, 1, 2, .tenth⟩]) = .error .shortPayload ∧
    decodeCiMode2 [2#8, 1#8] none = .error .shortPayload := by decide
/-- F32, with the label the open table gives. -/
theorem test_dataRequest :
    msgOf (exec (.dataRequest ⟨130⟩ (framed 0x82#8 [0x41#8])) open0) =
      some (.dataRequest ⟨0x41#8, Config.drLabel 0x41#8⟩) := rfl
theorem test_acSetting :
    msgOf (exec (.acSetting ⟨144⟩ (framed 0x90#8 [7#8, 8#8])) open0) =
      some (.acSetting ⟨7#8, Config.asLabel 7#8⟩) := rfl
/-- D3. -/
theorem test_req130 :
    ends (release State.reset [0x2E#8, 0x82#8, 1#8, 1#8, 0x7B#8]) = some ([.frame
      { start := 0x2E#8, fid := 130#8, name := some ⟨130⟩, n := 1#8, payload := [1#8], cks := 0x7B#8, cksOk := true
        status := .noDecoder, msg := none }], some ⟨130⟩) := by decide
theorem test_req144 :
    (nextOf (exec (.req144 ⟨144⟩ none (framed 0x90#8 [])) State.reset)).map (·.last) = some (some ⟨144⟩) := by decide
theorem test_req192 :
    nextOf (exec (.req192 ⟨29⟩ none (framed 0xC0#8 [])) after29) = some after29 := by decide
/-- A request id may share a decoder (R68). -/
theorem test_req200 :
    msgOf (exec (.req200 ⟨200⟩ (some .swcAngle) (framed 0xC8#8 [0xFF#8, 0x0F#8])) State.reset) =
      some (.swcAngle (-4095)) := by decide
/-- D2, with LAST already set. -/
theorem test_unknownFid :
    ends (release after29 [0x2E#8, 7#8, 1#8, 0xAA#8, 0x4D#8]) = some ([.frame
      { start := 0x2E#8, fid := 7#8, name := none, n := 1#8, payload := [0xAA#8], cks := 0x4D#8, cksOk := true
        status := .unknownFunctionId, msg := none }], some ⟨29⟩) := by decide
/-- Only a first candidate can have id 46: no delimiter has been seen before it. -/
theorem test_fid46 :
    (ends (exec (.fid46 .miss [0x41#8, 0x2E#8, 0#8, 0xD1#8]) after29)).map (·.2) = some (some ⟨29⟩) ∧
    (ends (exec (.fid46 (.hit ⟨46⟩ none) [0x41#8, 0x2E#8, 0#8, 0xD1#8]) after29)).map (·.2) =
      some (some ⟨46⟩) := by decide

/-- The codes of R181. -/
theorem test_codes :
    (Verdict.decoded ⟨29⟩ (.swcAngle 0)).code = 0 ∧ (Verdict.noDecoder ⟨29⟩).code = 1 ∧ Verdict.unknown.code = 2 ∧
    (Verdict.short ⟨29⟩).code = 3 ∧ Verdict.malformedGate.code = 4 ∧ (Verdict.malformedDecode ⟨29⟩).code = 4 ∧
    Verdict.suppressed.code = 5 ∧ Fault.bufferOverflow.code = 6 ∧
    (faultOf (exec (.append 7#8) (capped 1 [0x2E#8]))).map Fault.code = some 6 := by decide

/-! ## Reader -/

/-- I1, I4, I9, I14. -/
theorem test_rdle :
    (workOf (exec (.rdle [0xFF#8, 0x0F#8] 0 2) State.reset)).map (·.rd) = some (some (.ok 4095)) ∧
    (workOf (exec (.rdle [0#8, 1#8, 0x2C#8, 0#8] 1 2) State.reset)).map (·.rd) = some (some (.ok 11265)) ∧
    (workOf (exec (.rdle [0x12#8, 0x34#8] 1 1) State.reset)).map (·.rd) = some (some (.ok 0)) ∧
    (workOf (exec (.rdle [1#8, 2#8, 3#8] 1 3) State.reset)).map (·.rd) = some (some (.error .malformed)) := by decide
/-- I5, I15, I12, I11. -/
theorem test_rdbe :
    (workOf (exec (.rdbe [0x12#8, 0x34#8, 0x56#8, 0x78#8, 0x9A#8] 0 4) State.reset)).map (·.rd) =
      some (some (.ok 305419896)) ∧
    (workOf (exec (.rdbe [1#8, 2#8, 3#8] 1 2) State.reset)).map (·.rd) = some (some (.ok 515)) ∧
    (workOf (exec (.rdbe [1#8, 2#8, 3#8] 2 2) State.reset)).map (·.rd) = some (some (.ok 0)) ∧
    (workOf (exec (.rdbe [] 0 2) State.reset)).map (·.rd) = some (some (.ok 0)) := by decide

/-! ## States and operands that meet the hypotheses of the statements -/

theorem witness_DecodeOfEncodeIsIdentity_stages :
    ([.delim, .append 0#8, .append 255#8, .noData, .reset, .checkMin [1#8], .processFrame [1#8], .parseHeader f29,
      .slicePayload f29, .cksRx f29, .cksCalc f29, .cksCompare f29, .lookup f29, .suppressTest f29, .suppressUpdate f29,
      .dispatch f29, .decode f29, .rdle [] 0 0, .rdbe [] 0 0] : List Instr).all (WellFormed lutOpen) = true := by decide
theorem witness_DecodeOfEncodeIsIdentity_functions :
    ([.radarFront ⟨29⟩ f29, .tpms ⟨37⟩ f37, .radarRear ⟨30⟩ (framed 30#8 []), .oilElec ⟨31⟩ (framed 31#8 []),
      .basicFly ⟨32⟩ (framed 32#8 []), .carDoor ⟨33⟩ (framed 33#8 []), .acState ⟨34⟩ (framed 34#8 []),
      .travelOil ⟨35⟩ (framed 35#8 []), .swcAngle ⟨36⟩ (framed 36#8 []), .carInfo ⟨38⟩ (framed 38#8 []),
      .dataRequest ⟨130⟩ (framed 130#8 []), .acSetting ⟨144⟩ (framed 144#8 []), .req192 ⟨192⟩ none (framed 192#8 []),
      .req200 ⟨200⟩ none (framed 200#8 []), .unknownFid (framed 7#8 []),
      .fid46 .miss (framed 46#8 [])] : List Instr).all (WellFormed lutOpen) = true ∧
    WellFormed Config.lutReference (.req130 ⟨130⟩ none (framed 130#8 [])) = true ∧
    WellFormed Config.lutReference (.req144 ⟨144⟩ none (framed 144#8 [])) = true := by decide
theorem witness_DecodedFormIsWellFormed :
    decode lutOpen (.candidate f29) = .ok (.radarFront ⟨29⟩ f29) ∧
    decode lutOpen (.candidate (framed 40#8 [])) = .ok (.processFrame (framed 40#8 [])) := by decide
theorem witness_ConformingLutFixesTheKnownIds :
    lutConforms lutOpen = true ∧ (28#8 : Byte).toNat < 29 ∧ 65 < (66#8 : Byte).toNat ∧ 65 < (129#8 : Byte).toNat ∧
    (131#8 : Byte).toNat ≠ 130 ∧ (131#8 : Byte).toNat ≠ 144 ∧ (131#8 : Byte).toNat ≠ 192 ∧
    (131#8 : Byte).toNat ≠ 200 := by decide
theorem witness_DelimitedFrameNeverHasFid46 : Config.delim ∉ f29.tail ∧ Config.delim ∉ ([] : Frame).tail := by decide
theorem witness_StepRunsTheDecodedStimulus :
    { after29 with input := [.byte 0x2E#8, .noData] }.input = .byte 0x2E#8 :: [.noData] ∧
    decode lutOpen (.stim (.byte 0x2E#8)) = .ok .delim ∧ decode lutOpen (.stim (.byte 7#8)) = .ok (.append 7#8) ∧
    faultOf (exec (.append 7#8) (capped 1 [0x2E#8])) = some .bufferOverflow := by decide
theorem witness_StepWithoutStimulusChangesNothing : after29.input = [] := by decide
theorem witness_DelimRunsTheInstructionOfTheFrame :
    decode lutOpen (.candidate { open0 with buf := f37 }.buf) = .ok (.tpms ⟨37⟩ f37) ∧
    decode lutOpen (.candidate { open0 with buf := framed 7#8 [] }.buf) = .ok (.unknownFid (framed 7#8 [])) := by decide
theorem witness_UnboundedBuildNeverStops : after29.params.bufCap = none := by decide
theorem witness_AppendAddsOneByte :
    (∀ c, open0.params.bufCap = some c → open0.buf.length < c) ∧
    (∀ c, (capped 2 [0x2E#8]).params.bufCap = some c → (capped 2 [0x2E#8]).buf.length < c) := by
  constructor
  · intro c h; cases h
  · intro c h; cases h; decide
theorem witness_AppendToFullBufferFaults :
    (capped 1 [0x2E#8]).params.bufCap = some 1 ∧ 1 ≤ (capped 1 [0x2E#8]).buf.length := by decide
theorem witness_DelimReleasesTheBuffer : State.reset.buf = [] ∧ (capped 1 [0x2E#8]).buf ≠ [] := by decide
theorem witness_NoDataEventsAreInvisible :
    after29.work = Work.none ∧
    ([.noData, .byte 0x2E#8, .noData] : List Stimulus).filter (fun x => decide (x ≠ .noData)) = [.byte 0x2E#8] := by decide
/-- The segmentation example of 95_test_vectors section 2.1. -/
theorem witness_StreamIsCutAtEveryDelimiter :
    State.reset.params.bufCap = none ∧ State.reset.work = Work.none ∧ State.reset.buf = [] ∧
    Stimulus.reset ∉ ([.byte 0#8, .noData, .byte 0xFF#8, .byte 0x2E#8, .byte 0x1D#8, .byte 0x2E#8, .byte 0x2E#8,
      .byte 0x25#8, .byte 6#8] : List Stimulus) ∧
    bytesOf [.byte 0#8, .noData, .byte 0xFF#8, .byte 0x2E#8, .byte 0x1D#8, .byte 0x2E#8, .byte 0x2E#8,
      .byte 0x25#8, .byte 6#8] = rejoin [0#8, 0xFF#8] [[0x1D#8], [], [0x25#8, 6#8]] ∧
    Config.delim ∉ ([0#8, 0xFF#8] : List Byte) ∧
    (∀ g ∈ ([[0x1D#8], [], [0x25#8, 6#8]] : List (List Byte)), Config.delim ∉ g) ∧
    candidates [0#8, 0xFF#8] [[0x1D#8], [], [0x25#8, 6#8]] = [[0#8, 0xFF#8], [0x2E#8, 0x1D#8], [0x2E#8]] ∧
    tailBytes [0#8, 0xFF#8] [[0x1D#8], [], [0x25#8, 6#8]] = [0x2E#8, 0x25#8, 6#8] := by decide
theorem witness_ShortCandidateIsMalformed : ([0x2E#8, 0x1D#8, 0#8] : Frame).length < 4 ∧ ([] : Frame).length < 4 := by
  decide
theorem witness_PayloadIsClippedAtTheFrameEnd :
    0 < (4#8 : Byte).toNat ∧ 0 < ([1#8, 2#8] : List Byte).length + 1 ∧ 2 < (4#8 : Byte).toNat ∧
    2 < ([1#8, 2#8] : List Byte).length + 1 ∧ ([1#8, 2#8] : List Byte).length = (2#8 : Byte).toNat ∧
    ([1#8, 2#8] : List Byte).length < (3#8 : Byte).toNat := by decide
theorem witness_ChecksumMatchesExactlyAtSum255 : 2 ≤ ([0x2E#8, 0xFF#8] : Frame).length := by decide
theorem witness_BuiltFrameValidates :
    ([] : List Byte).length ≤ 255 ∧ (List.replicate 255 (0xFF#8 : Byte)).length ≤ 255 :=
  ⟨by decide, Nat.le_of_eq List.length_replicate⟩
theorem witness_SingleBitFlipIsDetected :
    2 ≤ f29.length ∧ 1 < f29.length ∧ 7 < f29.length ∧ (0 : Nat) < 8 ∧ (7 : Nat) < 8 ∧ cksOk f29 = true := by decide
theorem witness_ChecksumSteersNothing :
    (2#8 : Byte).toNat ≤ ([1#8, 2#8] : List Byte).length ∧ (0#8 : Byte).toNat ≤ ([] : List Byte).length := by decide
theorem witness_SuppressorTestsAndStoresTheName :
    4 ≤ f29.length ∧ lookLut after29.lut (frameFid f29) = .hit ⟨29⟩ (some .radarFront) := by decide
theorem witness_DispatchRoutesAndDecodeDecodes :
    4 ≤ f29.length ∧ lookLut after29.lut (frameFid f29) = .hit ⟨29⟩ (some .radarFront) ∧
    minLen after29.params .radarFront ≤ (framePayload f29).length ∧
    lookLut after29.lut (frameFid (framed 29#8 [1#8, 2#8, 3#8])) = .hit ⟨29⟩ (some .radarFront) ∧
    (framePayload (framed 29#8 [1#8, 2#8, 3#8])).length < minLen after29.params .radarFront := by decide
theorem witness_UnidentifiedFrameLeavesTheSuppressorAlone :
    4 ≤ (framed 7#8 []).length ∧ lookLut after29.lut (frameFid (framed 7#8 [])) = .miss := by decide
theorem witness_ProcessFrameTakesTheFirstOutcome :
    4 ≤ (framed 7#8 []).length ∧ lookLut after29.lut (frameFid (framed 7#8 [])) = .miss ∧
    lookLut after29.lut (frameFid f29) = .hit ⟨29⟩ (some .radarFront) ∧ after29.last = some ⟨29⟩ ∧
    State.reset.last ≠ some ⟨29⟩ ∧ lookLut after29.lut (frameFid (framed 130#8 [])) = .hit ⟨130⟩ none ∧
    decodePayload after29.params .tpms (framePayload (framed 37#8 [0#8])) = .error .shortPayload ∧
    decodePayload after29.params .tpms (framePayload (framed 37#8 [3#8, 1#8, 1#8, 1#8, 1#8, 1#8])) =
      .error .malformed ∧
    decodePayload after29.params .radarFront (framePayload f29) = .ok (.radarFront ⟨1, 4, 7, 10⟩) := by decide
theorem witness_ProcessFrameIsItsRowsInOrder : 4 ≤ ([0x2E#8, 0x25#8, 0#8, 0xDA#8] : Frame).length := by decide
theorem witness_UnidentifiedFramesDoNotBreakARun :
    identifiedAs State.reset.lut f29 ⟨29⟩ ∧ identifiedAs State.reset.lut (framed 29#8 []) ⟨29⟩ ∧
    ∀ u ∈ ([framed 7#8 [], [0x2E#8]] : List Frame), notIdentified State.reset.lut u := by
  refine ⟨⟨by decide, _, rfl⟩, ⟨by decide, _, rfl⟩, ?_⟩
  intro u hu
  simp only [List.mem_cons, List.not_mem_nil, or_false] at hu
  rcases hu with rfl | rfl
  · exact .inr (by decide)
  · exact .inl (by decide)
/-- The source's A A B A (vector S9), at the first, the repeated and the changed position. -/
theorem witness_FramePassesExactlyWhenNameChanges :
    List.Forall₂ (identifiedAs State.reset.lut) [f29, f29, f37, f29] [⟨29⟩, ⟨29⟩, ⟨37⟩, ⟨29⟩] ∧
    ([⟨29⟩, ⟨29⟩, ⟨37⟩, ⟨29⟩] : List NameTag)[0]? = some ⟨29⟩ ∧
    ([⟨29⟩, ⟨29⟩, ⟨37⟩, ⟨29⟩] : List NameTag)[1]? = some ⟨29⟩ ∧
    ([⟨29⟩, ⟨29⟩, ⟨37⟩, ⟨29⟩] : List NameTag)[3]? = some ⟨29⟩ := by
  have a : identifiedAs State.reset.lut f29 ⟨29⟩ := ⟨by decide, _, rfl⟩
  have b : identifiedAs State.reset.lut f37 ⟨37⟩ := ⟨by decide, _, rfl⟩
  exact ⟨.cons a (.cons a (.cons b (.cons a .nil))), rfl, rfl, rfl⟩
theorem witness_RepeatedNameIsDropped : 4 ≤ f29.length ∧ after29.last = some ⟨29⟩ := by decide
/-- One payload below the minimum of each decoder. -/
theorem witness_ShortPayloadIsReportedAndNameKept :
    4 ≤ (framed 29#8 []).length ∧ open0.last ≠ some ⟨29⟩ ∧
    ([.radarFront, .radarRear, .oilElec, .swcAngle, .basicFly, .travelOil, .carDoor, .tpms, .acState, .carInfo,
      .dataRequest, .acSetting] : List Decoder).all (fun d =>
        decide ((framePayload (framed 29#8 (List.replicate (minLen open0.params d - 1) 0#8))).length <
          minLen open0.params d)) = true := by decide
theorem witness_LongerPayloadDecodesTheSame :
    paramsConform Config.defaults = true ∧ Decoder.radarFront ≠ .carInfo ∧
    decodePayload Config.defaults .radarFront [1#8, 2#8, 3#8, 4#8] = .ok (.radarFront ⟨1, 4, 7, 10⟩) := by decide
theorem witness_OnlyTpmsUnitBitsAreMalformed :
    paramsConform Config.defaults = true ∧
    decodePayload Config.defaults .tpms [3#8, 1#8, 1#8, 1#8, 1#8, 1#8] = .error .malformed := by decide
theorem witness_ProximityMap :
    (0#8 : Byte) ≠ 1#8 ∧ (0#8 : Byte) ≠ 4#8 ∧ (5#8 : Byte) ≠ 1#8 ∧ (5#8 : Byte) ≠ 2#8 ∧ (5#8 : Byte) ≠ 3#8 ∧
    (5#8 : Byte) ≠ 4#8 := by decide
theorem witness_RadarFrontReportsFourLevels :
    4 ≤ f29.length ∧ State.reset.last ≠ some ⟨29⟩ ∧ framePayload f29 = 1#8 :: 2#8 :: 3#8 :: 4#8 :: [] ∧
    (framePayload (framed 29#8 [1#8, 2#8, 3#8])).length < 4 := by decide
theorem witness_RadarRearReportsLevelsAndCentral :
    4 ≤ (framed 30#8 [1#8, 1#8, 2#8, 2#8, 0xD5#8]).length ∧ open0.last ≠ some ⟨30⟩ ∧
    framePayload (framed 30#8 [1#8, 1#8, 2#8, 2#8, 0xD5#8]) = 1#8 :: 1#8 :: 2#8 :: 2#8 :: 0xD5#8 :: [] ∧
    (framePayload (framed 30#8 [1#8, 1#8, 2#8, 2#8])).length < 5 := by decide
theorem witness_OilElectricityReportsItsBits :
    4 ≤ (framed 31#8 [0x85#8, 0x21#8]).length ∧ open0.last ≠ some ⟨31⟩ ∧
    framePayload (framed 31#8 [0x85#8, 0x21#8]) = 0x85#8 :: 0x21#8 :: [] ∧
    (framePayload (framed 31#8 [0x85#8])).length < 2 := by decide
/-- A payload of exactly the minimum, with each unit key and with none. -/
theorem witness_BasicFlyReportsBigEndianValues :
    open0.last ≠ some ⟨32⟩ ∧ paramsConform open0.params = true ∧
    open0.params.mlBasicFly ≤ (framePayload (framed 32#8 [0#8, 0#8, 0#8, 0#8, 0#8, 0#8, 0#8])).length ∧
    (framePayload (framed 32#8 [0#8, 0#8, 0#8, 0#8, 0#8, 0#8, 0#8]))[open0.params.bfOffUnit]? =
      some open0.params.bfKeySpace ∧
    (framePayload (framed 32#8 [0#8, 0#8, 0#8, 0#8, 0#8, 0#8, 1#8]))[open0.params.bfOffUnit]? =
      some open0.params.bfKeyMile ∧
    (framePayload (framed 32#8 [0#8, 0#8, 0#8, 0#8, 0#8, 0#8, 2#8]))[open0.params.bfOffUnit]? =
      some open0.params.bfKeyKm ∧
    (framePayload (framed 32#8 [0#8, 0#8, 0#8, 0#8, 0#8, 0#8, 9#8]))[open0.params.bfOffUnit]? = some 9#8 ∧
    (9#8 : Byte) ≠ open0.params.bfKeySpace ∧ (9#8 : Byte) ≠ open0.params.bfKeyMile ∧
    (9#8 : Byte) ≠ open0.params.bfKeyKm := by decide
theorem witness_CarDoorReportsItsFlags :
    4 ≤ (framed 33#8 [0x88#8, 0xC0#8]).length ∧ open0.last ≠ some ⟨33⟩ ∧
    framePayload (framed 33#8 [0x88#8, 0xC0#8]) = 0x88#8 :: 0xC0#8 :: [] ∧ open0.params.flagOrder = .descending ∧
    ascending.last ≠ some ⟨33⟩ ∧ ascending.params.flagOrder = .ascending ∧
    (framePayload (framed 33#8 [0x88#8])).length < 2 := by decide
theorem witness_TemperatureMap :
    (1#8 : Byte).toNat ≠ 0 ∧ (254#8 : Byte).toNat ≠ 255 ∧ 31 < (32#8 : Byte).toNat ∧ 31 < (255#8 : Byte).toNat ∧
    0 < (1#8 : Byte).toNat ∧ (30#8 : Byte).toNat < 31 := by decide
theorem witness_AcStateReportsItsFields :
    4 ≤ (framed 34#8 [0x81#8, 0#8, 0x28#8, 0#8, 0#8, 0#8, 0#8, 0#8]).length ∧ open0.last ≠ some ⟨34⟩ ∧
    framePayload (framed 34#8 [0x81#8, 0#8, 0x28#8, 0#8, 0#8, 0#8, 0#8, 0#8]) =
      0x81#8 :: 0#8 :: 0x28#8 :: 0#8 :: 0#8 :: 0#8 :: 0#8 :: 0#8 :: [] ∧
    open0.params.flagOrder = .descending ∧ ascending.params.flagOrder = .ascending ∧ ascending.last ≠ some ⟨34⟩ ∧
    (framePayload (framed 34#8 [0#8, 0#8, 0#8, 0#8, 0#8, 0#8, 0#8])).length < 8 := by decide
theorem witness_PressureMap :
    (1#8 : Byte).toNat ≠ 0 ∧ (1#8 : Byte).toNat ≠ 255 ∧ (254#8 : Byte).toNat ≠ 0 ∧ (254#8 : Byte).toNat ≠ 255 := by
  decide
theorem witness_TpmsReportsAlarmsAndPressures :
    4 ≤ f37.length ∧ State.reset.last ≠ some ⟨37⟩ ∧
    framePayload f37 = 1#8 :: 0x64#8 :: 0x64#8 :: 0x64#8 :: 0x64#8 :: 0x64#8 :: [] ∧
    (0x40#8 : Byte).toNat % 4 = 0 ∧ (1#8 : Byte).toNat % 4 = 1 ∧ (0x42#8 : Byte).toNat % 4 = 2 ∧
    (3#8 : Byte).toNat % 4 = 3 ∧ (framePayload (framed 37#8 [1#8, 1#8, 1#8, 1#8, 1#8])).length < 6 := by decide
theorem witness_TravelOilReportsSixFigures :
    open0.last ≠ some ⟨35⟩ ∧ paramsConform open0.params = true ∧
    open0.params.mlTravelOil ≤ (framePayload (framed 35#8 (List.replicate 13 7#8))).length ∧
    (framePayload (framed 35#8 (List.replicate 13 7#8)))[0]? = some 7#8 := by decide
theorem witness_CarInfoReportsItsMode :
    4 ≤ (framed 38#8 []).length ∧ open0.last ≠ some ⟨38⟩ ∧ framePayload (framed 38#8 []) = [] ∧
    framePayload (framed 38#8 [0#8]) = 0#8 :: [] ∧ framePayload (framed 38#8 [1#8]) = 1#8 :: [] ∧
    framePayload (framed 38#8 [2#8]) = 2#8 :: [] ∧ framePayload (framed 38#8 [3#8]) = 3#8 :: [] ∧
    framePayload (framed 38#8 [4#8]) = 4#8 :: [] ∧ (0#8 : Byte) ≠ 1#8 ∧ (4#8 : Byte) ≠ 3#8 := by decide
/-- Reads that fit, one of exactly the last two bytes, the last byte by itself, one that meets the range rule, an index
outside. -/
theorem witness_CarInfoMode2ReadsBigEndian :
    List.Forall₂ (fun (fd : CiField) v =>
        if fd.cnt = 1 then ∃ b, ([2#8, 1#8, 0x2C#8, 7#8] : List Byte)[fd.off]? = some b ∧ v = b.toNat
        else rd [2#8, 1#8, 0x2C#8, 7#8] fd.off fd.cnt .be = .ok v)
      [⟨⟨1⟩, 1, 2, .tenth⟩, ⟨⟨2⟩, 3, 1, .one⟩] [300, 7] ∧
    (∃ fd ∈ ([⟨⟨1⟩, 1, 2, .one⟩, ⟨⟨2⟩, 1, 4, .one⟩] : List CiField),
      if fd.cnt = 1 then ([2#8, 1#8, 0x2C#8, 7#8] : List Byte).length ≤ fd.off
      else rd [2#8, 1#8, 0x2C#8, 7#8] fd.off fd.cnt .be = .error .malformed) ∧
    (∃ fd ∈ ([⟨⟨2⟩, 4, 1, .one⟩] : List CiField),
      if fd.cnt = 1 then ([2#8, 1#8, 0x2C#8, 7#8] : List Byte).length ≤ fd.off
      else rd [2#8, 1#8, 0x2C#8, 7#8] fd.off fd.cnt .be = .error .malformed) ∧
    (∀ fd ∈ ([⟨⟨1⟩, 2, 2, .one⟩, ⟨⟨2⟩, 3, 1, .one⟩] : List CiField),
      fd.off + fd.cnt ≤ ([2#8, 1#8, 0x2C#8, 7#8] : List Byte).length) ∧
    (∃ fd ∈ ([⟨⟨2⟩, 3, 2, .one⟩] : List CiField), ([2#8, 1#8, 0x2C#8, 7#8] : List Byte).length < fd.off + fd.cnt) :=
  ⟨.cons (by decide) (.cons ⟨7#8, rfl, rfl⟩ .nil), ⟨_, List.mem_cons_of_mem _ List.mem_cons_self, by decide⟩,
    ⟨_, List.mem_cons_self, by decide⟩, by decide, ⟨_, List.mem_cons_self, by decide⟩⟩
theorem witness_CommandsReportCodeAndLabel :
    4 ≤ (framed 130#8 [0x41#8]).length ∧ open0.last ≠ some ⟨130⟩ ∧ framePayload (framed 130#8 [0x41#8]) = 0x41#8 :: [] ∧
    4 ≤ (framed 130#8 []).length ∧ framePayload (framed 130#8 []) = [] := by decide
theorem witness_RequestRowsFollowTheirEntry : 4 ≤ (framed 130#8 []).length ∧ State.reset.last ≠ some ⟨130⟩ := by decide
theorem witness_UnknownIdIsReported : lookLut after29.lut 7#8 = .miss := by decide
theorem witness_ReaderReadsBothOrders :
    ([1#8, 2#8, 3#8] : List Byte).length ≤ 2 + 1 ∧ (1 + 1 < ([1#8, 2#8, 3#8] : List Byte).length) ∧
    ([1#8, 2#8, 3#8] : List Byte).length < 1 + 3 ∧ 1 + 2 ≤ ([1#8, 2#8, 3#8] : List Byte).length := by decide
theorem witness_ReaderResultIsBoundedAndReversible :
    rd [0xFF#8, 0xFF#8] 0 2 .be = .ok 65535 ∧ rd [] 0 0 .le = .ok 0 ∧ 0 + 1 < ([1#8, 2#8] : List Byte).length ∧
    0 + 2 ≤ ([1#8, 2#8] : List Byte).length := by decide
/-- A machine in the middle of a run, with LAST, OUT and BUF in use. -/
theorem witness_EveryStepKeepsTheInvariant :
    Inv { after29 with buf := [0x2E#8, 7#8], out := [.malformed [0#8]], input := [.byte 0x2E#8] } ∧
    step { after29 with buf := [0x2E#8, 7#8], out := [.malformed [0#8]], input := [.byte 0x2E#8] } =
      .next { after29 with buf := [0x2E#8], out := [.malformed [0#8], .malformed [0x2E#8, 7#8]] } := by
  refine ⟨⟨by decide, by decide, by decide, by decide, ?_, ?_, ?_, by decide⟩, rfl⟩
  · intro c h; cases h
  · intro n h; cases h; exact ⟨⟨0x1D#8, ⟨29⟩, some .radarFront⟩, by decide, rfl⟩
  · intro r h
    obtain rfl : r = .malformed [0#8] := by simpa using h
    exact List.cons_ne_nil _ _
theorem witness_OnlyTheNamedOperationsWrite :
    exec (.suppressUpdate f37) after29 = .next { after29 with last := some ⟨37⟩ } ∧
    hitName after29 (.suppressUpdate f37) = some ⟨37⟩ ∧ exec .noData after29 = .next after29 ∧ after29.last ≠ none ∧
    exec .reset after29 = .next State.reset := ⟨rfl, by decide, rfl, by decide, rfl⟩
theorem witness_OnlyADelimiterEmits :
    step { after29 with buf := [0x2E#8], input := [.byte 0x2E#8] } =
      .next { after29 with buf := [0x2E#8], out := [.malformed [0x2E#8]] } ∧
    { after29 with buf := [0x2E#8], input := [.byte 0x2E#8] }.input.head? ≠ some .reset := ⟨rfl, by decide⟩

end Sys2Proof.Tests
end

section
/-! PROOFS. Scope (spec/00_scope.md): a step runs the operation of its stimulus, DELIM the instruction of its frame. -/

namespace Sys2Proof.Machine

/-! ## The row of an identified function (R65 to R70) -/

/-- The row of an identified function is one of three: its decoder's own, the request row of its id, PROCESS_FRAME. -/
theorem identifiedRow_cases (fid : Byte) (name : NameTag) (dec : Option Decoder) (f : Frame) :
    (∃ d, dec = some d ∧ identifiedRow fid name dec f = decoderRow d name f) ∨
    (∃ row, requestRow fid = some row ∧ identifiedRow fid name dec f = row name dec f) ∨
    identifiedRow fid name dec f = .processFrame f := by
  cases hrow : requestRow fid with
  | some row =>
    unfold identifiedRow
    split
    · exact .inl ⟨.dataRequest, rfl, rfl⟩
    · exact .inl ⟨.acSetting, rfl, rfl⟩
    · exact .inr (.inl ⟨row, rfl, by simp only [hrow]⟩)
  | none =>
    cases dec with
    | none => exact .inr (.inr (by simp [identifiedRow, hrow]))
    | some d =>
      -- RADAR_FRONT and TPMS are the two rows that one id alone admits (R66, R67).
      by_cases hid : (d = .radarFront → fid = 0x1D#8) ∧ (d = .tpms → fid = 0x25#8)
      · exact .inl ⟨d, rfl, by cases d <;> simp_all [identifiedRow, decoderRow]⟩
      · exact .inr (.inr (by cases d <;> simp_all [identifiedRow]))

/-- Each decoder's row is the per-frame procedure under a hit with that decoder. -/
theorem exec_decoderRow (d : Decoder) (name : NameTag) (f : Frame) (s : State) :
    exec (decoderRow d name f) s = .next (s.runFrame (.hit name (some d)) f) := by
  cases d <;> rfl

/-- Each request row is the per-frame procedure under a hit with whatever decoder the LUT holds (R68). -/
theorem exec_requestRow {fid : Byte} {row : NameTag → Option Decoder → Frame → Instr} (h : requestRow fid = some row)
    (name : NameTag) (dec : Option Decoder) (f : Frame) (s : State) :
    exec (row name dec f) s = .next (s.runFrame (.hit name dec) f) := by
  unfold requestRow at h
  split_ifs at h <;> cases h <;> rfl

/-- PROCESS_FRAME runs the per-frame procedure with the LUT's answer for the frame's id (R116, R117). -/
theorem exec_processFrame (f : Frame) (s : State) : exec (.processFrame f) s = .next (s.processFrame f) := rfl

/-- The row of an identified function does what PROCESS_FRAME does. -/
theorem exec_identifiedRow {s : State} {f : Frame} {name : NameTag} {dec : Option Decoder}
    (h : lookLut s.lut (frameFid f) = .hit name dec) :
    exec (identifiedRow (frameFid f) name dec f) s = .next (s.processFrame f) := by
  have hframe : s.processFrame f = s.runFrame (.hit name dec) f := by simp only [State.processFrame, h]
  obtain ⟨d, rfl, hown⟩ | ⟨row, hrow, hreq⟩ | hproc := identifiedRow_cases (frameFid f) name dec f
  · rw [hown, exec_decoderRow, hframe]
  · rw [hreq, exec_requestRow hrow, hframe]
  · rw [hproc, exec_processFrame]

/-! ## The instruction of a candidate frame (R5) -/

/-- Everything a candidate frame can decode to: it is past the length gate, and its row is FID_46, UNKNOWN_FID or the
one of the function its id names. -/
theorem decode_candidate_cases {lut : Lut} {f : Frame} {i : Instr} (h : decode lut (.candidate f) = .ok i) :
    4 ≤ f.length ∧
    ((frameFid f = 0x2E#8 ∧ i = .fid46 (lookLut lut (frameFid f)) f) ∨
     (frameFid f ≠ 0x2E#8 ∧ lookLut lut (frameFid f) = .miss ∧ i = .unknownFid f) ∨
     (frameFid f ≠ 0x2E#8 ∧ ∃ name dec, lookLut lut (frameFid f) = .hit name dec ∧
        i = identifiedRow (frameFid f) name dec f)) := by
  simp only [decode, decodeCandidate] at h
  split_ifs at h with hlen hfid
  · cases h
    exact ⟨by omega, .inl ⟨hfid, rfl⟩⟩
  · refine ⟨by omega, .inr ?_⟩
    cases hlook : lookLut lut (frameFid f) with
    | miss =>
      simp only [hlook, Except.ok.injEq] at h
      exact .inl ⟨hfid, rfl, h.symm⟩
    | hit name dec =>
      simp only [hlook, Except.ok.injEq] at h
      exact .inr ⟨hfid, name, dec, rfl, h.symm⟩

/-- A candidate frame's instruction does what PROCESS_FRAME does on the frame (R5, R117). -/
theorem exec_of_decode_candidate {s : State} {f : Frame} {i : Instr} (h : decode s.lut (.candidate f) = .ok i) :
    exec i s = .next (s.processFrame f) := by
  obtain ⟨-, ⟨-, rfl⟩ | ⟨-, hmiss, rfl⟩ | ⟨-, name, dec, hhit, rfl⟩⟩ := decode_candidate_cases h
  · rfl
  · simp only [exec, execUnknownFid, State.processFrame, hmiss]
  · exact exec_identifiedRow hhit

/-- Settles O10: past the length gate BUF is not empty, so DELIM is PROCESS_FRAME on the restarted buffer, and so is the
instruction of the frame, as the LUT is the same in both states. -/
theorem delimRunsTheInstructionOfTheFrame : Obligations.DelimRunsTheInstructionOfTheFrame := by
  intro s i hdec
  obtain ⟨hlen, -⟩ := decode_candidate_cases hdec
  have hbuf : s.buf ≠ [] := List.ne_nil_of_length_pos (by omega)
  calc exec .delim s
      = .next (s.restartBuf.processFrame s.buf) := by rw [exec_delim, if_neg hbuf]
    _ = exec i s.restartBuf := (exec_of_decode_candidate (s := s.restartBuf) hdec).symm

/-! ## The instruction of a stimulus (R11, R60) -/

/-- Settles O8: a stimulus decodes to its one operation, and the step is that of `step_of_stimulus` in each outcome. -/
theorem stepRunsTheDecodedStimulus : Obligations.StepRunsTheDecodedStimulus := by
  intro s x rest i hinput hdec
  obtain rfl : decodeStimulus x = i := Except.ok.inj hdec
  refine (step_of_stimulus hinput).trans ?_
  cases exec (decodeStimulus x) { s with input := rest } with
  | next t => rfl
  | fault r => rfl
  | refused r => rfl

end Sys2Proof.Machine
end

section
/-! PROOFS. The state (spec/10_state.md): who may write what, the invariant every step keeps, reset. -/

namespace Sys2Proof.Machine

/-! ## Reset and the empty input (R33, R83, R200, R201) -/

/-- Settles O1: the fields of the state after reset. -/
theorem resetLeavesEmptyBufferAndNoName : Obligations.ResetLeavesEmptyBufferAndNoName :=
  ⟨State.reset_buf, State.reset_last, State.reset_out⟩

/-- RESET takes every field but the constants and the stimuli to come from the state after reset. -/
theorem exec_reset (s : State) :
    exec .reset s = .next { State.reset with lut := s.lut, params := s.params, input := s.input } := rfl

/-- Settles O2: the fields that RESET takes from the state after reset are those of R200. -/
theorem resetActionRestoresResetState : Obligations.ResetActionRestoresResetState := exec_reset

/-- Settles O9: an empty input is fetched as NODATA, the identity, so the end of the step alone acts. -/
theorem stepWithoutStimulusChangesNothing : Obligations.StepWithoutStimulusChangesNothing := by
  intro s hinput
  have hexec : exec (decodeStimulus s.fetch.1) s.fetch.2 = .next s := by rw [State.fetch_nil hinput]; rfl
  simp only [step, hexec]
  rfl

/-! ## What an operation on a frame writes (R21, R22, R31) -/

/-- `t` is `s` but for the per-frame values, for OUT, which may be one record longer, and for LAST, which may have taken
the name `hit`. -/
structure WritesLastAndOut (hit : Option NameTag) (s t : State) : Prop where
  buf : t.buf = s.buf
  lut : t.lut = s.lut
  params : t.params = s.params
  input : t.input = s.input
  out : ∃ rs : List Record, t.out = s.out ++ rs ∧ rs.length ≤ 1
  last : t.last = s.last ∨ ∃ name, hit = some name ∧ t.last = some name

theorem WritesLastAndOut.refl (hit : Option NameTag) (s : State) : WritesLastAndOut hit s s :=
  ⟨rfl, rfl, rfl, rfl, ⟨[], by simp⟩, .inl rfl⟩

theorem WritesLastAndOut.setWork (hit : Option NameTag) (s : State) (w : Work) :
    WritesLastAndOut hit s (s.setWork w) := { WritesLastAndOut.refl hit s with }

theorem WritesLastAndOut.setLast {hit : Option NameTag} {name : NameTag} (h : hit = some name) (s : State) :
    WritesLastAndOut hit s (s.setLast name) := { WritesLastAndOut.refl hit s with last := .inr ⟨name, h, rfl⟩ }

/-- Below the length gate a frame leaves one record and no name, whatever the look-up. -/
theorem WritesLastAndOut.gate (hit : Option NameTag) (s : State) (look : Look) {f : Frame} (h : f.length < 4) :
    WritesLastAndOut hit s (s.runFrame look f) := by
  rw [State.runFrame_gate s look h]
  exact { WritesLastAndOut.refl hit s with out := ⟨[.malformed f], rfl, Nat.le_refl 1⟩ }

/-- The per-frame procedure stores no name but that of its hit. -/
theorem WritesLastAndOut.runFrame (s : State) (look : Look) (f : Frame) :
    WritesLastAndOut (nameOf look) s (s.runFrame look f) := by
  obtain ⟨last, rs, hrun, hlen, hlast⟩ := State.runFrame_cases s look f
  rw [hrun]
  refine ⟨rfl, rfl, rfl, rfl, ⟨rs, rfl, hlen⟩, hlast.imp id ?_⟩
  rintro ⟨name, dec, rfl, hname⟩
  exact ⟨name, rfl, hname⟩

/-- Past the length gate a frame is identified by its hit. -/
theorem identifiedName_of_le {lut : Lut} {f : Frame} (h : 4 ≤ f.length) :
    identifiedName lut f = nameOf (lookLut lut (frameFid f)) := if_neg (Nat.not_lt.mpr h)

/-- PROCESS_FRAME stores no name but that under which the frame is identified. -/
theorem WritesLastAndOut.processFrame (s : State) (f : Frame) :
    WritesLastAndOut (identifiedName s.lut f) s (s.processFrame f) := by
  by_cases h : f.length < 4
  · exact .gate _ s _ h
  · rw [identifiedName_of_le (by omega)]
    exact .runFrame s _ f

/-- A stage writes what it writes past the length gate, and one record below it. -/
theorem WritesLastAndOut.staged {hit : Option NameTag} {s t : State} {f : Frame}
    (h : 4 ≤ f.length → WritesLastAndOut hit s t) : WritesLastAndOut hit s (s.staged f t) := by
  unfold State.staged
  split_ifs with hlen
  · have hgate : s.raiseMalformed f = s.runFrame .miss f := by
      simp only [State.raiseMalformed, State.runFrame, frameVerdict_gate hlen]
    rw [hgate]
    exact .gate hit s .miss hlen
  · exact h (Nat.not_lt.mp hlen)

/-! ## What an operation writes -/

/-- SUPPRESS_UPDATE stores the name under which the frame is identified (R132). -/
theorem exec_suppressUpdate_writes {f : Frame} {s t : State} (h : exec (.suppressUpdate f) s = .next t) :
    WritesLastAndOut (identifiedName s.lut f) s t := by
  cases h
  refine .staged fun hlen => ?_
  rw [identifiedName_of_le hlen]
  split
  · exact .refl _ s
  · next name dec hlook => exact .setLast (by rw [hlook]; rfl) s

/-- Every operation but DELIM, APPEND and RESET answers a next state that differs in the per-frame values, LAST and OUT
alone. -/
theorem exec_writesLastAndOut {i : Instr} {s t : State} (h : exec i s = .next t) (hdelim : i ≠ .delim)
    (happend : ∀ b, i ≠ .append b) (hreset : i ≠ .reset) : WritesLastAndOut (hitName s i) s t := by
  cases i with
  | delim => exact absurd rfl hdelim
  | append b => exact absurd rfl (happend b)
  | reset => exact absurd rfl hreset
  | noData => cases h; exact .refl _ s
  | rdle w off cnt | rdbe w off cnt => cases h; exact .setWork _ s _
  | checkMin f | parseHeader f | slicePayload f | cksRx f | cksCalc f | cksCompare f | lookup f =>
    cases h; exact .staged fun _ => .setWork _ s _
  | suppressTest f =>
    cases h
    refine .staged fun _ => ?_
    split
    · exact .refl _ s
    · exact .setWork _ s _
  | dispatch f | decode f =>
    cases h
    refine .staged fun _ => ?_
    split
    · exact .setWork _ s _
    · exact .refl _ s
  | suppressUpdate f => exact exec_suppressUpdate_writes h
  | processFrame f => cases h; exact .processFrame s f
  | radarFront name f | tpms name f | radarRear name f | oilElec name f | basicFly name f | carDoor name f
  | acState name f | travelOil name f | swcAngle name f | carInfo name f | dataRequest name f | acSetting name f =>
    cases h; exact .runFrame s (.hit name (some _)) f
  | req130 name dec f | req144 name dec f | req192 name dec f | req200 name dec f =>
    cases h; exact .runFrame s (.hit name dec) f
  | unknownFid f => cases h; exact .runFrame s .miss f
  | fid46 look f => cases h; exact .runFrame s look f

/-- APPEND that answers a next state found BUF not full, and wrote its byte there. -/
theorem exec_append_next {b : Byte} {s t : State} (h : exec (.append b) s = .next t) :
    s.bufFull = false ∧ t = s.appendByte b := by
  simp only [exec, execAppend] at h
  split_ifs at h with hfull
  cases h
  exact ⟨by simpa using hfull, rfl⟩

/-- DELIM restarts BUF and then writes as PROCESS_FRAME of the old BUF does; an empty BUF is no frame. -/
theorem exec_delim_writes {s t : State} (h : exec .delim s = .next t) :
    WritesLastAndOut (hitName s .delim) s.restartBuf t := by
  rw [exec_delim] at h
  split_ifs at h with hbuf
  · cases h; exact .refl _ _
  · cases h; exact .processFrame s.restartBuf s.buf

/-- LAST that takes a name or stays is not cleared. -/
theorem WritesLastAndOut.last_ne_none {hit : Option NameTag} {s t : State} (h : WritesLastAndOut hit s t)
    (hs : s.last ≠ none) : t.last ≠ none := by
  obtain heq | ⟨name, -, hname⟩ := h.last
  · rwa [heq]
  · rw [hname]; exact Option.some_ne_none name

/-- Settles O59: RESET and APPEND write what their equations say, DELIM what a frame writes on the restarted buffer, and
every other operation LAST and OUT alone. -/
theorem onlyTheNamedOperationsWrite : Obligations.OnlyTheNamedOperationsWrite := by
  intro i s t h
  by_cases hreset : i = .reset
  · subst hreset; cases h
    simp
  by_cases happend : ∃ b, i = .append b
  · obtain ⟨b, rfl⟩ := happend
    obtain ⟨-, rfl⟩ := exec_append_next h
    simp
  by_cases hdelim : i = .delim
  · subst hdelim
    have hw := exec_delim_writes h
    exact ⟨hw.lut, hw.params, hw.input, fun hne => absurd rfl hne, fun _ => hw.out, fun _ => hw.last_ne_none,
      fun _ => hw.last, fun heq => absurd heq hreset⟩
  · have hw := exec_writesLastAndOut h hdelim (not_exists.mp happend) hreset
    exact ⟨hw.lut, hw.params, hw.input, fun _ _ _ => hw.buf, fun _ => hw.out, fun _ => hw.last_ne_none,
      fun _ => hw.last, fun heq => absurd heq hreset⟩

/-! ## What a step can do (R11, R125) -/

/-- Everything a step's operation can do to the state without its stimulus, by the stimulus fetched. -/
theorem exec_decodeStimulus_cases {x : Stimulus} {s u : State} (h : exec (decodeStimulus x) s = .next u) :
    (x = .byte Config.delim ∧ u = if s.buf = [] then s.restartBuf else s.restartBuf.processFrame s.buf) ∨
    (∃ b, x = .byte b ∧ b ≠ Config.delim ∧ s.bufFull = false ∧ u = s.appendByte b) ∨
    (x = .noData ∧ u = s) ∨
    (x = .reset ∧ u = { State.reset with lut := s.lut, params := s.params, input := s.input }) := by
  cases x with
  | byte b =>
    by_cases hb : b = Config.delim
    · subst hb
      rw [decodeStimulus, if_pos rfl, exec_delim] at h
      cases h
      exact .inl ⟨rfl, rfl⟩
    · rw [decodeStimulus, if_neg hb] at h
      obtain ⟨hfull, rfl⟩ := exec_append_next h
      exact .inr (.inl ⟨b, rfl, hb, hfull, rfl⟩)
  | noData => cases h; exact .inr (.inr (.inl ⟨rfl, rfl⟩))
  | reset => cases h; exact .inr (.inr (.inr ⟨rfl, rfl⟩))

/-- Fetching takes the stimulus and nothing else. -/
theorem State.fetch_eq (s : State) : s.fetch.2 = { s with input := s.input.tail } := by
  cases h : s.input with
  | nil => rw [State.fetch_nil h, List.tail_nil, ← h]
  | cons x rest => rw [State.fetch_cons h, List.tail_cons]

/-- A fetched byte or reset action is the first waiting stimulus: an empty input is fetched as NoData. -/
theorem State.head?_of_fetch {s : State} {x : Stimulus} (h : s.fetch.1 = x) (hx : x ≠ .noData) :
    s.input.head? = some x := by
  cases hi : s.input with
  | nil => rw [State.fetch_nil hi] at h; exact absurd h.symm hx
  | cons y rest => rw [State.fetch_cons hi] at h; rw [← h, List.head?_cons]

/-- Settles O60: of the operations of a stimulus DELIM on a BUF with bytes emits, at most one record. -/
theorem onlyADelimiterEmits : Obligations.OnlyADelimiterEmits := by
  intro s t hstep hreset
  obtain ⟨u, hexec, rfl⟩ := step_next hstep
  rw [State.fetch_eq] at hexec
  obtain ⟨hx, rfl⟩ | ⟨b, -, -, -, rfl⟩ | ⟨-, rfl⟩ | ⟨hx, -⟩ := exec_decodeStimulus_cases hexec
  · by_cases hbuf : s.buf = []
    · exact .inl (by simp [hbuf])
    · have hdelim := State.head?_of_fetch hx (by simp)
      obtain ⟨rs, hout, hlen⟩ :=
        (WritesLastAndOut.processFrame { s with input := s.input.tail }.restartBuf s.buf).out
      rw [State.dropWork_out, if_neg hbuf, hout]
      obtain rfl | ⟨r, rfl⟩ : rs = [] ∨ ∃ r, rs = [r] := by
        cases rs with
        | nil => exact .inl rfl
        | cons r rest => exact .inr ⟨r, by simpa using hlen⟩
      · exact .inl (List.append_nil _)
      · exact .inr ⟨⟨r, rfl⟩, hdelim, hbuf⟩
  · exact .inl rfl
  · exact .inl rfl
  · exact absurd (State.head?_of_fetch hx (by simp)) hreset

/-! ## Well-formed records (R124) -/

/-- A payload is no longer than declared (R93). -/
theorem framePayload_length_le (f : Frame) : (framePayload f).length ≤ (frameN f).toNat := by
  simp only [framePayload, slice, List.length_drop, List.length_take]
  omega

/-- The record of a frame whose id misses. -/
theorem recordWf_unknown {lut : Lut} {f : Frame} (h : lookLut lut (frameFid f) = .miss) :
    recordWf lut (.frame (frameRec f none .unknownFunctionId none)) :=
  ⟨by simp [frameRec], by simp [frameRec], h, framePayload_length_le f⟩

/-- A record under the name of the hit, with a message exactly when its status is that of a decode. -/
theorem recordWf_identified {lut : Lut} {f : Frame} {name : NameTag} {dec : Option Decoder} {status : Status}
    {msg : Option Message} (h : lookLut lut (frameFid f) = .hit name dec) (hmsg : msg.isSome = true ↔ status = .decoded)
    (hstatus : status ≠ .unknownFunctionId) : recordWf lut (.frame (frameRec f (some name) status msg)) :=
  ⟨hmsg, by simp [frameRec, hstatus], ⟨dec, h⟩, framePayload_length_le f⟩

/-! ## The invariant (R20 to R22, R84, R115, R130) -/

/-- A consistent finite build holds the longest well-formed frame (R190). -/
theorem longestFrame_le_of_paramsConform {p : Params} {c : Nat} (h : paramsConform p = true) (hc : p.bufCap = some c) :
    Config.longestFrame ≤ c := by
  unfold paramsConform at h
  rw [hc] at h
  exact of_decide_eq_true (Bool.and_eq_true_iff.mp h).2

/-- Nothing but the read-only part of the state after reset can break the invariant. -/
theorem Inv.resetWith {lut : Lut} {params : Params} (hsorted : lutSorted lut = true) (hlut : lutConforms lut = true)
    (hparams : paramsConform params = true) (input : List Stimulus) :
    Inv { State.reset with lut := lut, params := params, input := input } where
  memory := hsorted
  lut := hlut
  params := hparams
  buf := by simp
  cap := by simp
  last := by simp
  out := by simp
  work := rfl

theorem Inv.withInput {s : State} (h : Inv s) (input : List Stimulus) : Inv { s with input := input } := { h with }

theorem Inv.dropWork {s : State} (h : Inv s) : Inv s.dropWork := { h with work := rfl }

/-- APPEND of a byte that is no delimiter, on a BUF that is not full. -/
theorem Inv.appendByte {s : State} {b : Byte} (h : Inv s) (hb : b ≠ Config.delim) (hfull : s.bufFull = false) :
    Inv (s.appendByte b) where
  memory := h.memory
  lut := h.lut
  params := h.params
  buf := by
    intro hmem
    obtain hold | hnew : Config.delim ∈ s.buf.tail ∨ Config.delim ∈ [b] := by
      cases hbuf : s.buf with
      | nil => simp [hbuf] at hmem
      | cons a rest => simpa [hbuf] using hmem
    · exact h.buf hold
    · exact hb (List.mem_singleton.mp hnew).symm
  cap := by
    intro c hc
    have hroom : ¬ c ≤ s.buf.length := fun hle => by
      simp [(State.bufFull_iff s).mpr ⟨c, hc, hle⟩] at hfull
    rw [State.appendByte_buf, List.length_append, List.length_singleton]
    omega
  last := h.last
  out := h.out
  work := h.work

/-- The new buffer is the delimiter alone, which fits every consistent build. -/
theorem Inv.restartBuf {s : State} (h : Inv s) : Inv s.restartBuf where
  memory := h.memory
  lut := h.lut
  params := h.params
  buf := by simp
  cap := fun c hc => Nat.le_trans (by simp) (longestFrame_le_of_paramsConform h.params hc)
  last := h.last
  out := h.out
  work := h.work

theorem Inv.emit {s : State} {r : Record} (h : Inv s) (hr : recordWf s.lut r) : Inv (s.emit r) :=
  { h with
    out := by
      intro r' hmem
      obtain hold | rfl : r' ∈ s.out ∨ r' = r := by simpa using hmem
      · exact h.out r' hold
      · exact hr }

theorem Inv.setLast {s : State} {fid : Byte} {name : NameTag} {dec : Option Decoder} (h : Inv s)
    (hhit : lookLut s.lut fid = .hit name dec) : Inv (s.setLast name) :=
  { h with
    last := by
      rintro n ⟨⟩
      obtain ⟨r, hmem, -, hname, -⟩ := lookLut_hit hhit
      exact ⟨r, hmem, hname⟩ }

/-- An identified frame that was not suppressed leaves its name and one record. -/
theorem Inv.passed {s : State} {fid : Byte} {name : NameTag} {dec : Option Decoder} {r : Record} (h : Inv s)
    (hhit : lookLut s.lut fid = .hit name dec) (hr : recordWf s.lut r) : Inv (passed s name r) :=
  (h.setLast hhit).emit hr

/-- The per-frame procedure keeps the invariant, in each outcome of R187. -/
theorem Inv.processFrame {s : State} {f : Frame} (h : Inv s) (hf : f ≠ []) : Inv (s.processFrame f) := by
  unfold State.processFrame
  by_cases hlen : f.length < 4
  · rw [State.runFrame_gate s _ hlen]
    exact h.emit hf
  have hlong : 4 ≤ f.length := Nat.not_lt.mp hlen
  cases hlook : lookLut s.lut (frameFid f) with
  | miss =>
    rw [State.runFrame_miss s hlong]
    exact h.emit (recordWf_unknown hlook)
  | hit name dec =>
    by_cases hlast : s.last = some name
    · rwa [State.runFrame_suppressed s hlong hlast]
    cases dec with
    | none =>
      rw [State.runFrame_noDecoder s hlong hlast]
      exact h.passed hlook (recordWf_identified hlook (by simp) (by simp))
    | some d =>
      rw [State.runFrame_decode s hlong hlast]
      refine h.passed hlook ?_
      split
      · exact recordWf_identified hlook (by simp) (by simp)
      · exact recordWf_identified hlook (by simp) (by simp)
      · exact hf

/-- Settles O57: the reference LUT and the default parameters conform. -/
theorem invariantAtReset : Obligations.InvariantAtReset :=
  Inv.resetWith Memory.wf_reset (by decide) (by decide) []

/-- Settles O58: the fetch takes a stimulus only, each of the four operations of a stimulus keeps the invariant, and so
does the end of the step. -/
theorem everyStepKeepsTheInvariant : Obligations.EveryStepKeepsTheInvariant := by
  intro s t hinv hstep
  obtain ⟨u, hexec, rfl⟩ := step_next hstep
  rw [State.fetch_eq] at hexec
  have hfetched : Inv { s with input := s.input.tail } := hinv.withInput _
  refine Inv.dropWork ?_
  obtain ⟨-, rfl⟩ | ⟨b, -, hb, hfull, rfl⟩ | ⟨-, rfl⟩ | ⟨-, rfl⟩ := exec_decodeStimulus_cases hexec
  · split_ifs with hbuf
    · exact hfetched.restartBuf
    · exact hfetched.restartBuf.processFrame hbuf
  · exact hfetched.appendByte hb hfull
  · exact hfetched
  · exact Inv.resetWith hinv.memory hinv.lut hinv.params _

end Sys2Proof.Machine
end

section
/-! PROOFS. Encoding (spec/30_encoding.md): decoder and encoder against each other, what a LUT of the spec fixes, the frames
a sender builds, the rows of requests and unknown ids. -/

namespace Sys2Proof.Machine

/-! ## Stages (R117) -/

/-- The operation of a stage's row. -/
def stageRow (op : FrameOp) (f : Frame) : Instr :=
  match op with
  | .checkMin => .checkMin f
  | .parseHeader => .parseHeader f
  | .slicePayload => .slicePayload f
  | .cksRx => .cksRx f
  | .cksCalc => .cksCalc f
  | .cksCompare => .cksCompare f
  | .lookup => .lookup f
  | .suppressTest => .suppressTest f
  | .suppressUpdate => .suppressUpdate f
  | .dispatch => .dispatch f
  | .decode => .decode f
  | .processFrame => .processFrame f

@[simp] theorem longEnough_iff {f : Frame} : longEnough f = true ↔ 4 ≤ f.length := by
  simp [longEnough]

@[simp] theorem encode_stageRow (op : FrameOp) (f : Frame) : encode (stageRow op f) = .stage op f := by
  cases op <;> rfl

/-- A guarded row decodes to itself, where its guard passes. -/
theorem ite_error_ok_eq_ok_iff {c : Prop} [Decidable c] {e : Reject} {row i : Instr} :
    (if c then .error e else .ok row) = (.ok i : Except Reject Instr) ↔ ¬ c ∧ i = row := by
  by_cases h : c
  · simp [h]
  · rw [if_neg h, Except.ok.injEq, eq_comm (a := row)]
    exact (and_iff_right h).symm

/-- A stage decodes to its own row and nothing else, and does so exactly where that row is well formed. -/
theorem decode_stage_eq_ok_iff {lut : Lut} {op : FrameOp} {f : Frame} {i : Instr} :
    decode lut (.stage op f) = .ok i ↔ WellFormed lut (stageRow op f) = true ∧ i = stageRow op f := by
  have hempty : ¬ f = [] ↔ (f != []) = true := bne_iff_ne.symm
  have hshort : ¬ f.length < 4 ↔ longEnough f = true := by rw [longEnough_iff, Nat.not_lt]
  cases op with
  | checkMin | processFrame => exact ite_error_ok_eq_ok_iff.trans (and_congr_left' hempty)
  | parseHeader | slicePayload | cksRx | cksCalc | cksCompare | lookup | suppressTest | suppressUpdate | dispatch
  | decode => exact ite_error_ok_eq_ok_iff.trans (and_congr_left' hshort)

theorem decode_encode_stageRow {lut : Lut} (op : FrameOp) {f : Frame} (h : WellFormed lut (stageRow op f) = true) :
    decode lut (encode (stageRow op f)) = .ok (stageRow op f) := by
  rw [encode_stageRow]
  exact decode_stage_eq_ok_iff.mpr ⟨h, rfl⟩

/-! ## The rows of an identified function (R65 to R70) -/

/-- Whether an id that hits with this decoder is read under the decoder's own row and not under another (entry 9). -/
def ownRow (fid : Byte) : Decoder → Bool
  | .dataRequest => true
  | .acSetting => true
  | .radarFront => fid == 0x1D#8
  | .tpms => fid == 0x25#8
  | _ => !isRequestFid fid

/-- The request rows are those of the request ids (R68). -/
theorem requestRow_eq_none_iff {fid : Byte} : requestRow fid = none ↔ isRequestFid fid = false := by
  unfold requestRow
  split_ifs <;> simp_all [isRequestFid]

theorem requestRow_of_ownRow {fid : Byte} {d : Decoder} (h : ownRow fid d = true) (hdata : d ≠ .dataRequest)
    (hac : d ≠ .acSetting) : requestRow fid = none := by
  rw [requestRow_eq_none_iff]
  cases d with
  | dataRequest => exact absurd rfl hdata
  | acSetting => exact absurd rfl hac
  | radarFront | tpms => obtain rfl := eq_of_beq h; rfl
  | radarRear | oilElec | swcAngle | basicFly | travelOil | carDoor | acState | carInfo => simpa [ownRow] using h

theorem identifiedRow_of_ownRow {fid : Byte} {d : Decoder} (h : ownRow fid d = true) (name : NameTag) (f : Frame) :
    identifiedRow fid name (some d) f = decoderRow d name f := by
  have hnone := requestRow_of_ownRow h
  cases d with
  | dataRequest | acSetting => rfl
  | radarFront | tpms => obtain rfl := eq_of_beq h; rfl
  | radarRear | oilElec | swcAngle | basicFly | travelOil | carDoor | acState | carInfo =>
    simp [identifiedRow, decoderRow, hnone]

/-- A request id is read under its request row, unless its decoder has a row for every id. -/
theorem identifiedRow_of_requestRow {fid : Byte} {row : NameTag → Option Decoder → Frame → Instr}
    {dec : Option Decoder} (hrow : requestRow fid = some row) (hdata : dec ≠ some .dataRequest)
    (hac : dec ≠ some .acSetting) (name : NameTag) (f : Frame) : identifiedRow fid name dec f = row name dec f := by
  unfold identifiedRow
  split
  · exact absurd rfl hdata
  · exact absurd rfl hac
  · simp only [hrow]

/-- Every other identified frame is read as PROCESS_FRAME. -/
theorem identifiedRow_of_no_row {fid : Byte} {dec : Option Decoder} (hrow : requestRow fid = none)
    (hown : ∀ d, dec = some d → ownRow fid d = false) (name : NameTag) (f : Frame) :
    identifiedRow fid name dec f = .processFrame f := by
  cases dec with
  | none => simp only [identifiedRow, hrow]
  | some d =>
    have hd := hown d rfl
    cases d with
    | dataRequest | acSetting => cases hd
    | radarFront | tpms => simp only [identifiedRow, hrow, if_neg (ne_of_beq_false hd)]
    | radarRear | oilElec | swcAngle | basicFly | travelOil | carDoor | acState | carInfo =>
      simp [ownRow, requestRow_eq_none_iff.mp hrow] at hd

/-! ## Well-formed rows -/

@[simp] theorem encode_decoderRow (d : Decoder) (name : NameTag) (f : Frame) :
    encode (decoderRow d name f) = .candidate f := by
  cases d <;> rfl

theorem encode_requestRow {fid : Byte} {row : NameTag → Option Decoder → Frame → Instr} (h : requestRow fid = some row)
    (name : NameTag) (dec : Option Decoder) (f : Frame) : encode (row name dec f) = .candidate f := by
  unfold requestRow at h
  split_ifs at h <;> cases h <;> rfl

/-- A decoder's row is well formed on the frames past the length gate that the LUT routes to it, under the ids it owns. -/
theorem wellFormed_decoderRow_iff {lut : Lut} {d : Decoder} {name : NameTag} {f : Frame} :
    WellFormed lut (decoderRow d name f) = true ↔
      4 ≤ f.length ∧ frameFid f ≠ 0x2E#8 ∧ lookLut lut (frameFid f) = .hit name (some d) ∧
        ownRow (frameFid f) d = true := by
  have hopen : openWf lut name d f = true ↔ 4 ≤ f.length ∧ frameFid f ≠ 0x2E#8 ∧
      lookLut lut (frameFid f) = .hit name (some d) ∧ (!isRequestFid (frameFid f)) = true := by
    simp only [openWf, Bool.and_eq_true, longEnough_iff, beq_iff_eq, bne_iff_ne]
    tauto
  have hcommand : commandWf lut name d f = true ↔
      4 ≤ f.length ∧ frameFid f ≠ 0x2E#8 ∧ lookLut lut (frameFid f) = .hit name (some d) ∧ true = true := by
    simp only [commandWf, Bool.and_eq_true, longEnough_iff, beq_iff_eq, bne_iff_ne]
    tauto
  have hfixed : ∀ k : Byte, isRequestFid k = false →
      ((frameFid f == k && openWf lut name d f) = true ↔ 4 ≤ f.length ∧ frameFid f ≠ 0x2E#8 ∧
        lookLut lut (frameFid f) = .hit name (some d) ∧ (frameFid f == k) = true) := by
    intro k hk
    rw [Bool.and_eq_true, hopen]
    constructor
    · rintro ⟨hid, hlen, hne, hlook, -⟩
      exact ⟨hlen, hne, hlook, hid⟩
    · rintro ⟨hlen, hne, hlook, hid⟩
      exact ⟨hid, hlen, hne, hlook, by rw [eq_of_beq hid, hk]; rfl⟩
  cases d with
  | dataRequest | acSetting => exact hcommand
  | radarFront | tpms => exact hfixed _ rfl
  | radarRear | oilElec | swcAngle | basicFly | travelOil | carDoor | acState | carInfo => exact hopen

/-- A request row is well formed on the frames of its id that the LUT gives no command decoder. -/
theorem wellFormed_requestRow_iff {lut : Lut} {fid : Byte} {row : NameTag → Option Decoder → Frame → Instr}
    (hrow : requestRow fid = some row) {name : NameTag} {dec : Option Decoder} {f : Frame} :
    WellFormed lut (row name dec f) = true ↔
      4 ≤ f.length ∧ frameFid f = fid ∧ lookLut lut fid = .hit name dec ∧ dec ≠ some .dataRequest ∧
        dec ≠ some .acSetting := by
  have hwf : WellFormed lut (row name dec f) = requestWf lut fid name dec f := by
    unfold requestRow at hrow
    split_ifs at hrow <;> cases hrow <;> subst fid <;> rfl
  simp only [hwf, requestWf, Bool.and_eq_true, longEnough_iff, beq_iff_eq, bne_iff_ne, and_assoc]

theorem wellFormed_unknownFid_iff {lut : Lut} {f : Frame} :
    WellFormed lut (.unknownFid f) = true ↔
      4 ≤ f.length ∧ lookLut lut (frameFid f) = .miss ∧ frameFid f ≠ 0x2E#8 := by
  simp only [WellFormed, Bool.and_eq_true, longEnough_iff, beq_iff_eq, bne_iff_ne, and_assoc]

theorem wellFormed_fid46_iff {lut : Lut} {look : Look} {f : Frame} :
    WellFormed lut (.fid46 look f) = true ↔ 4 ≤ f.length ∧ frameFid f = 0x2E#8 ∧ look = lookLut lut 0x2E#8 := by
  simp only [WellFormed, Bool.and_eq_true, longEnough_iff, beq_iff_eq, and_assoc]

/-! ## Candidate frames (R61 to R72) -/

theorem decode_candidate_fid46 {lut : Lut} {f : Frame} (hlen : 4 ≤ f.length) (hfid : frameFid f = 0x2E#8) :
    decode lut (.candidate f) = .ok (.fid46 (lookLut lut 0x2E#8) f) := by
  simp [decode, decodeCandidate, Nat.not_lt.mpr hlen, hfid]

theorem decode_candidate_miss {lut : Lut} {f : Frame} (hlen : 4 ≤ f.length) (hfid : frameFid f ≠ 0x2E#8)
    (hmiss : lookLut lut (frameFid f) = .miss) : decode lut (.candidate f) = .ok (.unknownFid f) := by
  simp [decode, decodeCandidate, Nat.not_lt.mpr hlen, hfid, hmiss]

theorem decode_candidate_hit {lut : Lut} {f : Frame} {name : NameTag} {dec : Option Decoder} (hlen : 4 ≤ f.length)
    (hfid : frameFid f ≠ 0x2E#8) (hhit : lookLut lut (frameFid f) = .hit name dec) :
    decode lut (.candidate f) = .ok (identifiedRow (frameFid f) name dec f) := by
  simp [decode, decodeCandidate, Nat.not_lt.mpr hlen, hfid, hhit]

theorem decode_encode_decoderRow {lut : Lut} (d : Decoder) {name : NameTag} {f : Frame}
    (h : WellFormed lut (decoderRow d name f) = true) :
    decode lut (encode (decoderRow d name f)) = .ok (decoderRow d name f) := by
  obtain ⟨hlen, hfid, hhit, hown⟩ := wellFormed_decoderRow_iff.mp h
  rw [encode_decoderRow, decode_candidate_hit hlen hfid hhit, identifiedRow_of_ownRow hown]

theorem decode_encode_requestRow {lut : Lut} {fid : Byte} {row : NameTag → Option Decoder → Frame → Instr}
    (hrow : requestRow fid = some row) {name : NameTag} {dec : Option Decoder} {f : Frame}
    (h : WellFormed lut (row name dec f) = true) : decode lut (encode (row name dec f)) = .ok (row name dec f) := by
  obtain ⟨hlen, rfl, hhit, hdata, hac⟩ := (wellFormed_requestRow_iff hrow).mp h
  have hfid : frameFid f ≠ 0x2E#8 := fun heq => by
    rw [heq] at hrow
    cases hrow
  rw [encode_requestRow hrow, decode_candidate_hit hlen hfid hhit, identifiedRow_of_requestRow hrow hdata hac]

theorem requestRow_130 : requestRow 0x82#8 = some .req130 := rfl
theorem requestRow_144 : requestRow 0x90#8 = some .req144 := rfl
theorem requestRow_192 : requestRow 0xC0#8 = some .req192 := rfl
theorem requestRow_200 : requestRow 0xC8#8 = some .req200 := rfl

/-- Settles O3: by the form the operation is encoded in, a stimulus, a stage, a call of the reader, or a candidate frame
read under its decoder's row, its request row, UNKNOWN_FID or FID_46. -/
theorem decodeOfEncodeIsIdentity : Obligations.DecodeOfEncodeIsIdentity := by
  intro lut i h
  cases i with
  | delim | noData | reset | rdle w off cnt | rdbe w off cnt => rfl
  | append b =>
    have hb : b ≠ Config.delim := bne_iff_ne.mp h
    simp only [encode, decode, decodeStimulus, if_neg hb]
  | checkMin f => exact decode_encode_stageRow .checkMin h
  | parseHeader f => exact decode_encode_stageRow .parseHeader h
  | slicePayload f => exact decode_encode_stageRow .slicePayload h
  | cksRx f => exact decode_encode_stageRow .cksRx h
  | cksCalc f => exact decode_encode_stageRow .cksCalc h
  | cksCompare f => exact decode_encode_stageRow .cksCompare h
  | lookup f => exact decode_encode_stageRow .lookup h
  | suppressTest f => exact decode_encode_stageRow .suppressTest h
  | suppressUpdate f => exact decode_encode_stageRow .suppressUpdate h
  | dispatch f => exact decode_encode_stageRow .dispatch h
  | decode f => exact decode_encode_stageRow .decode h
  | processFrame f => exact decode_encode_stageRow .processFrame h
  | radarFront name f => exact decode_encode_decoderRow .radarFront h
  | tpms name f => exact decode_encode_decoderRow .tpms h
  | req130 name dec f => exact decode_encode_requestRow requestRow_130 h
  | req144 name dec f => exact decode_encode_requestRow requestRow_144 h
  | req192 name dec f => exact decode_encode_requestRow requestRow_192 h
  | req200 name dec f => exact decode_encode_requestRow requestRow_200 h
  | radarRear name f => exact decode_encode_decoderRow .radarRear h
  | oilElec name f => exact decode_encode_decoderRow .oilElec h
  | basicFly name f => exact decode_encode_decoderRow .basicFly h
  | carDoor name f => exact decode_encode_decoderRow .carDoor h
  | acState name f => exact decode_encode_decoderRow .acState h
  | travelOil name f => exact decode_encode_decoderRow .travelOil h
  | swcAngle name f => exact decode_encode_decoderRow .swcAngle h
  | carInfo name f => exact decode_encode_decoderRow .carInfo h
  | dataRequest name f => exact decode_encode_decoderRow .dataRequest h
  | acSetting name f => exact decode_encode_decoderRow .acSetting h
  | unknownFid f =>
    obtain ⟨hlen, hmiss, hfid⟩ := wellFormed_unknownFid_iff.mp h
    exact decode_candidate_miss hlen hfid hmiss
  | fid46 look f =>
    obtain ⟨hlen, hfid, rfl⟩ := wellFormed_fid46_iff.mp h
    exact decode_candidate_fid46 hlen hfid

/-- The instruction of an identified frame is well formed, and encodes to the frame unless it is PROCESS_FRAME. -/
theorem identifiedRow_wellFormed_encode {lut : Lut} {f : Frame} {name : NameTag} {dec : Option Decoder}
    (hlen : 4 ≤ f.length) (hfid : frameFid f ≠ 0x2E#8) (hhit : lookLut lut (frameFid f) = .hit name dec) :
    WellFormed lut (identifiedRow (frameFid f) name dec f) = true ∧
      (encode (identifiedRow (frameFid f) name dec f) = .candidate f ∨
        identifiedRow (frameFid f) name dec f = .processFrame f) := by
  by_cases hown : ∃ d, dec = some d ∧ ownRow (frameFid f) d = true
  · obtain ⟨d, rfl, hd⟩ := hown
    rw [identifiedRow_of_ownRow hd]
    exact ⟨wellFormed_decoderRow_iff.mpr ⟨hlen, hfid, hhit, hd⟩, .inl (encode_decoderRow d name f)⟩
  have hnot : ∀ d, dec = some d → ownRow (frameFid f) d = false := fun d hd =>
    Bool.eq_false_iff.mpr fun htrue => hown ⟨d, hd, htrue⟩
  cases hrow : requestRow (frameFid f) with
  | some row =>
    have hdata : dec ≠ some .dataRequest := fun heq => Bool.noConfusion (hnot _ heq)
    have hac : dec ≠ some .acSetting := fun heq => Bool.noConfusion (hnot _ heq)
    rw [identifiedRow_of_requestRow hrow hdata hac]
    exact ⟨(wellFormed_requestRow_iff hrow).mpr ⟨hlen, rfl, hhit, hdata, hac⟩, .inl (encode_requestRow hrow name dec f)⟩
  | none =>
    rw [identifiedRow_of_no_row hrow hnot]
    have hne : f ≠ [] := List.ne_nil_of_length_pos (by omega)
    exact ⟨bne_iff_ne.mpr hne, .inr rfl⟩

/-- A stimulus decodes to a well-formed operation, which encodes to the stimulus. -/
theorem decodeStimulus_wellFormed_encode (lut : Lut) (x : Stimulus) :
    WellFormed lut (decodeStimulus x) = true ∧ encode (decodeStimulus x) = .stim x := by
  cases x with
  | byte b =>
    by_cases hb : b = Config.delim
    · subst hb; exact ⟨rfl, rfl⟩
    · rw [decodeStimulus, if_neg hb]
      exact ⟨bne_iff_ne.mpr hb, rfl⟩
  | noData | reset => exact ⟨rfl, rfl⟩

/-- Settles O4: by the form that was decoded; of the candidate frames only the identified ones can be read as
PROCESS_FRAME. -/
theorem decodedFormIsWellFormed : Obligations.DecodedFormIsWellFormed := by
  intro lut w i h
  cases w with
  | stim x =>
    obtain rfl : decodeStimulus x = i := Except.ok.inj h
    obtain ⟨hwf, henc⟩ := decodeStimulus_wellFormed_encode lut x
    exact ⟨hwf, .inl henc⟩
  | stage op f =>
    obtain ⟨hwf, rfl⟩ := decode_stage_eq_ok_iff.mp h
    exact ⟨hwf, .inl (encode_stageRow op f)⟩
  | reader e w off cnt => cases e <;> cases h <;> exact ⟨rfl, .inl rfl⟩
  | candidate f =>
    obtain ⟨hlen, ⟨hfid, rfl⟩ | ⟨hfid, hmiss, rfl⟩ | ⟨hfid, name, dec, hhit, rfl⟩⟩ := decode_candidate_cases h
    · exact ⟨wellFormed_fid46_iff.mpr ⟨hlen, hfid, by rw [hfid]⟩, .inl rfl⟩
    · exact ⟨wellFormed_unknownFid_iff.mpr ⟨hlen, hmiss, hfid⟩, .inl rfl⟩
    · obtain ⟨hwf, henc⟩ := identifiedRow_wellFormed_encode hlen hfid hhit
      exact ⟨hwf, henc.imp_right fun hproc => ⟨f, rfl, hproc⟩⟩

/-- The function id of a frame of two bytes or more is among the bytes after its first (R91). -/
theorem frameFid_mem_tail {f : Frame} (h : 2 ≤ f.length) : frameFid f ∈ f.tail := by
  match f, h with
  | _ :: fid :: _, _ => exact List.mem_cons_self

/-- Settles O7: a frame that decodes to FID_46 is well formed as one, so its byte 1 is the delimiter. -/
theorem delimitedFrameNeverHasFid46 : Obligations.DelimitedFrameNeverHasFid46 := by
  intro lut f look g hcut hdec
  obtain ⟨hwf, henc | ⟨_, -, hproc⟩⟩ := decodedFormIsWellFormed lut _ _ hdec
  · obtain ⟨hlen, hfid, -⟩ := wellFormed_fid46_iff.mp hwf
    obtain rfl : g = f := Fetched.candidate.inj henc
    have hmem : frameFid g ∈ g.tail := frameFid_mem_tail (by omega)
    rw [hfid] at hmem
    exact hcut hmem
  · cases hproc

/-- Settles O5: the stream-level words and each function id's row, with the look-up in LUT_TV evaluated. -/
theorem writtenOutWordsDecode : Obligations.WrittenOutWordsDecode :=
  ⟨rfl, rfl, rfl,
    decode_candidate_hit (name := ⟨29⟩) (dec := some .radarFront) (by decide) (by decide) rfl,
    decode_candidate_hit (name := ⟨37⟩) (dec := some .tpms) (by decide) (by decide) rfl,
    decode_candidate_hit (name := ⟨130⟩) (dec := none) (by decide) (by decide) rfl,
    decode_candidate_miss (by decide) (by decide) rfl,
    decode_candidate_fid46 (by decide) rfl⟩

/-! ## The LUTs the spec allows (R66 to R69) -/

theorem routesTo_iff {lut : Lut} {fid : Byte} {d : Decoder} :
    routesTo lut fid d = true ↔ ∃ name, lookLut lut fid = .hit name (some d) := by
  unfold routesTo
  cases lookLut lut fid <;> simp

theorem hits_iff {lut : Lut} {fid : Byte} : hits lut fid = true ↔ ∃ name dec, lookLut lut fid = .hit name dec := by
  unfold hits
  cases lookLut lut fid <;> simp

/-- The request ids as numbers (R68). -/
theorem isRequestFid_iff {fid : Byte} :
    isRequestFid fid = true ↔ fid.toNat = 130 ∨ fid.toNat = 144 ∨ fid.toNat = 192 ∨ fid.toNat = 200 := by
  simp [isRequestFid, BitVec.toNat_eq, or_assoc]

/-- An id at which no LUT of the spec may have a row misses (R69). -/
theorem lookLut_eq_miss {lut : Lut} {fid : Byte} (hrows : ∀ r ∈ lut, mayHit r.fid = true) (hfid : mayHit fid ≠ true) :
    lookLut lut fid = .miss := by
  cases hlook : lookLut lut fid with
  | miss => rfl
  | hit name dec =>
    obtain ⟨r, hmem, rfl, -, -⟩ := lookLut_hit hlook
    exact absurd (hrows r hmem) hfid

/-- Settles O6: the clauses of `lutConforms`, one by one; the last says that an id outside the registry has no row. -/
theorem conformingLutFixesTheKnownIds : Obligations.ConformingLutFixesTheKnownIds := by
  intro lut h
  simp only [lutConforms, Bool.and_eq_true, routesTo_iff, hits_iff, List.all_eq_true, and_assoc] at h
  obtain ⟨h29, h37, h130, h144, h192, h200, hrows⟩ := h
  refine ⟨h29, h37, h130, h144, h192, h200, fun fid hout hn130 hn144 hn192 hn200 => lookLut_eq_miss hrows ?_⟩
  simp only [mayHit, ne_eq, Bool.or_eq_true, Bool.and_eq_true, decide_eq_true_eq, isRequestFid_iff]
  omega

/-! ## The fields of a frame written out as header, body and final byte (R91 to R96) -/

section
variable (start fid n : Byte) (body : List Byte) (c : Byte)

@[simp] theorem frameStart_cons (f : Frame) : frameStart (start :: f) = start := rfl
@[simp] theorem frameFid_cons (f : Frame) : frameFid (start :: fid :: f) = fid := rfl
@[simp] theorem frameN_cons (f : Frame) : frameN (start :: fid :: n :: f) = n := rfl

@[simp] theorem framePayload_cons (f : Frame) : framePayload (start :: fid :: n :: f) = f.take n.toNat := by
  simp [framePayload, slice, Nat.add_comm 3]

@[simp] theorem cksRx_concat (f : Frame) : cksRx (f ++ [c]) = c := by
  simp [cksRx]

/-- The 8-bit accumulator of R95 is the sum of the bytes modulo 256. -/
theorem foldl_add_eq (acc : Byte) (bytes : List Byte) :
    bytes.foldl (fun a b => a + b) acc = BitVec.ofNat 8 (acc.toNat + (bytes.map BitVec.toNat).sum) := by
  induction bytes generalizing acc with
  | nil => simp
  | cons b rest ih =>
    rw [List.foldl_cons, ih]
    apply BitVec.eq_of_toNat_eq
    simp [Nat.add_assoc]

/-- The checksum covers every byte but the first and the final one (R95). -/
theorem cksCalc_cons_concat (f : List Byte) :
    cksCalc (start :: (f ++ [c])) = BitVec.ofNat 8 (f.map BitVec.toNat).sum ^^^ Config.cksInv := by
  simp [cksCalc, slice, foldl_add_eq]

theorem cksOk_frame :
    cksOk (start :: fid :: n :: (body ++ [c])) =
      decide (BitVec.ofNat 8 (fid.toNat + n.toNat + (body.map BitVec.toNat).sum) ^^^ 0xFF#8 = c) := by
  have hcalc := cksCalc_cons_concat start c (fid :: n :: body)
  have hrx := cksRx_concat c (start :: fid :: n :: body)
  simp only [List.cons_append] at hcalc hrx
  simp only [cksOk, hcalc, hrx, List.map_cons, List.sum_cons, Nat.add_assoc]
  rfl

/-- The record fields of R124 read from the bytes of the frame. -/
theorem frameRec_frame (name : Option NameTag) (status : Status) (msg : Option Message) :
    frameRec (start :: fid :: n :: (body ++ [c])) name status msg =
      { start := start, fid := fid, name := name, n := n, payload := (body ++ [c]).take n.toNat, cks := c
        cksOk := decide (BitVec.ofNat 8 (fid.toNat + n.toNat + (body.map BitVec.toNat).sum) ^^^ 0xFF#8 = c)
        status := status, msg := msg } := by
  have hrx := cksRx_concat c (start :: fid :: n :: body)
  simp only [List.cons_append] at hrx
  simp [frameRec, cksOk_frame, hrx]

end

/-! ## The frames a sender builds (R74, R99) -/

theorem wireFrame_eq (fid : Byte) (p : List Byte) :
    wireFrame fid p = Config.delim :: fid :: BitVec.ofNat 8 p.length :: (p ++ [cksOf fid p]) := rfl

/-- Settles O23: a length of at most 255 is its own length byte, so the sender's checksum is the validator's and the
payload ends before the checksum byte. -/
theorem builtFrameValidates : Obligations.BuiltFrameValidates := by
  intro fid p hlen
  have hn : (BitVec.ofNat 8 p.length).toNat = p.length := by
    rw [BitVec.toNat_ofNat]
    exact Nat.mod_eq_of_lt (by omega)
  rw [wireFrame_eq]
  refine ⟨?_, frameFid_cons _ _ _, ?_⟩
  · rw [cksOk_frame, hn]
    exact decide_eq_true rfl
  · rw [framePayload_cons, hn, List.take_left]

/-! ## Request ids, FID_46 and unknown ids (R68, R71, R72, R182) -/

/-- FID_46 is the per-frame procedure under whatever the LUT answers at 46 (R72). -/
theorem exec_fid46 (look : Look) (f : Frame) (s : State) : exec (.fid46 look f) s = .next (s.runFrame look f) := rfl

theorem exec_unknownFid (f : Frame) (s : State) : exec (.unknownFid f) s = .next (s.runFrame .miss f) := rfl

theorem exec_requestRow_noDecoder {fid : Byte} {row : NameTag → Option Decoder → Frame → Instr}
    (hrow : requestRow fid = some row) {s : State} {name : NameTag} {f : Frame} (hlen : 4 ≤ f.length)
    (hlast : s.last ≠ some name) :
    exec (row name none f) s = .next (passed s name (.frame (frameRec f (some name) .noDecoder none))) := by
  rw [exec_requestRow hrow, State.runFrame_noDecoder s hlen hlast]

theorem exec_requestRow_decoder {fid : Byte} {row : NameTag → Option Decoder → Frame → Instr}
    (hrow : requestRow fid = some row) (d : Decoder) (name : NameTag) (f : Frame) (s : State) :
    exec (row name (some d) f) s = exec (decoderRow d name f) s := by
  rw [exec_requestRow hrow, exec_decoderRow]

/-- Settles O53: the request rows and FID_46 are the per-frame procedure under their entry. -/
theorem requestRowsFollowTheirEntry : Obligations.RequestRowsFollowTheirEntry := by
  intro s f name hlen
  refine ⟨fun hlast => ?_, fun d => ?_, ?_⟩
  · exact ⟨exec_requestRow_noDecoder requestRow_130 hlen hlast, exec_requestRow_noDecoder requestRow_144 hlen hlast,
      exec_requestRow_noDecoder requestRow_192 hlen hlast, exec_requestRow_noDecoder requestRow_200 hlen hlast,
      by rw [exec_fid46, State.runFrame_noDecoder s hlen hlast]⟩
  · exact ⟨exec_requestRow_decoder requestRow_130 d name f s, exec_requestRow_decoder requestRow_144 d name f s,
      exec_requestRow_decoder requestRow_192 d name f s, exec_requestRow_decoder requestRow_200 d name f s,
      by rw [exec_fid46, exec_decoderRow]⟩
  · rw [exec_fid46, State.runFrame_miss s hlen]

/-- Settles O54: each of the three operations is the per-frame procedure under a miss, whose record holds the raw
fields. -/
theorem unknownIdIsReported : Obligations.UnknownIdIsReported := by
  intro s start fid n c body i hi
  have hmiss : exec i s = .next (s.runFrame .miss (start :: fid :: n :: (body ++ [c]))) := by
    obtain rfl | rfl | ⟨rfl, hlook⟩ := hi
    · exact exec_unknownFid _ s
    · exact exec_fid46 .miss _ s
    · rw [exec_processFrame, State.processFrame, frameFid_cons, hlook]
  rw [hmiss, State.runFrame_miss s (by simp), frameRec_frame]

end Sys2Proof.Machine
end

section
/-! PROOFS. The Frame Assembler (spec/40_frame_assembler.md): what APPEND, DELIM and NODATA do, a run whose NoData events
are removed, and a stream cut into its candidate frames. -/

namespace Sys2Proof.Machine

/-! ## APPEND, DELIM, NODATA (R81 to R83, R190) -/

/-- APPEND finds room in an infinite build always, in a finite one below BUF_CAP. -/
theorem State.bufFull_eq_false_iff (s : State) :
    s.bufFull = false ↔ ∀ c, s.params.bufCap = some c → s.buf.length < c := by
  simp only [← Bool.not_eq_true, State.bufFull_iff, not_exists, not_and, Nat.not_le]

theorem exec_append_of_room {b : Byte} {s : State} (h : s.bufFull = false) :
    exec (.append b) s = .next (s.appendByte b) := by
  simp only [exec, execAppend, h, Bool.false_eq_true, if_false]

theorem exec_append_of_full {b : Byte} {s : State} (h : s.bufFull = true) :
    exec (.append b) s = .fault .bufferOverflow := by
  simp only [exec, execAppend, h, if_true]

theorem exec_noData (s : State) : exec .noData s = .next s := rfl

/-- The per-frame procedure neither reads nor writes BUF (R82, R117). -/
theorem State.processFrame_restartBuf (s : State) (f : Frame) :
    s.restartBuf.processFrame f = (s.processFrame f).restartBuf := rfl

/-- Settles O13: below BUF_CAP, or with no BUF_CAP, BUF is not full. -/
theorem appendAddsOneByte : Obligations.AppendAddsOneByte := by
  intro s b hroom
  exact exec_append_of_room (s.bufFull_eq_false_iff.mpr hroom)

/-- Settles O14: at BUF_CAP BUF is full. -/
theorem appendToFullBufferFaults : Obligations.AppendToFullBufferFaults := by
  intro s b c hcap hlen
  exact exec_append_of_full (s.bufFull_iff.mpr ⟨c, hcap, hlen⟩)

/-- Settles O15: by whether BUF is empty; the frame's outcome does not touch the new buffer. -/
theorem delimReleasesTheBuffer : Obligations.DelimReleasesTheBuffer := by
  intro s
  constructor
  · intro hbuf
    rw [exec_delim, if_pos hbuf]
    rfl
  · intro hbuf
    rw [exec_delim, if_neg hbuf, State.processFrame_restartBuf]
    rfl

/-! ## The stimuli to come do not matter to the one at hand (R11, R30) -/

/-- An outcome with other stimuli to come. -/
def outcomeWithInput (input : List Stimulus) : Host.Outcome State Fault Refusal → Host.Outcome State Fault Refusal
  | .next t => .next { t with input := input }
  | .fault r => .fault r
  | .refused r => .refused r

/-- The operation of a stimulus neither reads nor writes the stimuli to come. -/
theorem exec_decodeStimulus_withInput (x : Stimulus) (s : State) (input : List Stimulus) :
    exec (decodeStimulus x) { s with input := input } = outcomeWithInput input (exec (decodeStimulus x) s) := by
  cases x with
  | noData | reset => rfl
  | byte b =>
    by_cases hb : b = Config.delim
    · rw [decodeStimulus, if_pos hb, exec_delim, exec_delim]
      by_cases hbuf : s.buf = []
      · rw [if_pos hbuf, if_pos hbuf]; rfl
      · rw [if_neg hbuf, if_neg hbuf]; rfl
    · rw [decodeStimulus, if_neg hb]
      cases hfull : s.bufFull with
      | false => rw [exec_append_of_room hfull, exec_append_of_room (s := { s with input := input }) hfull]; rfl
      | true => rw [exec_append_of_full hfull, exec_append_of_full (s := { s with input := input }) hfull]; rfl

/-- A step is the operation of its stimulus on the state, the per-frame values dropped, with the other stimuli left. -/
theorem step_cons (s : State) (x : Stimulus) (rest : List Stimulus) :
    step { s with input := x :: rest } =
      (match exec (decodeStimulus x) s with
        | .next t => .next { t.dropWork with input := rest }
        | .fault r => .fault r
        | .refused r => .refused r) := by
  rw [step_of_stimulus (s := { s with input := x :: rest }) rfl, exec_decodeStimulus_withInput x s rest]
  cases exec (decodeStimulus x) s <;> rfl

theorem step_cons_next {s t : State} {x : Stimulus} (h : exec (decodeStimulus x) s = .next t) (rest : List Stimulus) :
    step { s with input := x :: rest } = .next { t.dropWork with input := rest } := by
  rw [step_cons, h]

/-- Between steps there is no per-frame value to drop (R27). -/
theorem State.dropWork_of_none {s : State} (h : s.work = Work.none) : s.dropWork = s := by
  rw [State.dropWork, ← h]

/-- A NoData event is taken from the input and does nothing else (R83). -/
theorem step_cons_noData {s : State} (h : s.work = Work.none) (rest : List Stimulus) :
    step { s with input := .noData :: rest } = .next { s with input := rest } := by
  rw [step_cons_next (x := .noData) (exec_noData s), State.dropWork_of_none h]

/-- Settles O16: by induction on the stimuli; a NoData event is a step that only takes it, and any other stimulus does
the same whatever comes after it. -/
theorem noDataEventsAreInvisible : Obligations.NoDataEventsAreInvisible := by
  refine ⟨exec_noData, fun s xs hwork => ?_⟩
  induction xs generalizing s with
  | nil => rfl
  | cons x rest ih =>
    by_cases hx : x = .noData
    · subst hx
      rw [List.filter_cons_of_neg (by simp), List.length_cons, run_next (step_cons_noData hwork rest)]
      exact ih s hwork
    · rw [List.filter_cons_of_pos (by simpa using hx), List.length_cons, List.length_cons]
      cases hexec : exec (decodeStimulus x) s with
      | next t =>
        rw [run_next (step_cons_next hexec _), run_next (step_cons_next hexec _)]
        exact ih t.dropWork (State.dropWork_work t)
      | fault r => rw [run_fault (by rw [step_cons, hexec]), run_fault (by rw [step_cons, hexec])]
      | refused r => rw [run_refused (by rw [step_cons, hexec]), run_refused (by rw [step_cons, hexec])]

/-! ## The state after a byte, in an unbounded build (R81, R82) -/

/-- What a byte makes of the state where BUF is never full. -/
def State.takeByte (s : State) (b : Byte) : State :=
  if b = Config.delim then
    if s.buf = [] then s.restartBuf else (s.processFrame s.buf).restartBuf
  else s.appendByte b

theorem State.takeByte_delim_empty {s : State} (h : s.buf = []) : s.takeByte Config.delim = s.restartBuf := by
  rw [State.takeByte, if_pos rfl, if_pos h]

theorem State.takeByte_delim {s : State} (h : s.buf ≠ []) :
    s.takeByte Config.delim = (s.processFrame s.buf).restartBuf := by
  rw [State.takeByte, if_pos rfl, if_neg h]

theorem State.takeByte_of_ne {b : Byte} (s : State) (h : b ≠ Config.delim) : s.takeByte b = s.appendByte b := if_neg h

@[simp] theorem State.takeByte_params (s : State) (b : Byte) : (s.takeByte b).params = s.params := by
  unfold State.takeByte; split_ifs <;> rfl

@[simp] theorem State.takeByte_work (s : State) (b : Byte) : (s.takeByte b).work = s.work := by
  unfold State.takeByte; split_ifs <;> rfl

/-- `takeByte` is the operation a byte selects (R60). -/
theorem exec_byte {s : State} (hcap : s.params.bufCap = none) (b : Byte) :
    exec (decodeStimulus (.byte b)) s = .next (s.takeByte b) := by
  by_cases hb : b = Config.delim
  · subst hb
    rw [decodeStimulus, if_pos rfl, exec_delim]
    by_cases hbuf : s.buf = []
    · rw [if_pos hbuf, State.takeByte_delim_empty hbuf]
    · rw [if_neg hbuf, State.takeByte_delim hbuf, State.processFrame_restartBuf]
  · have hroom : s.bufFull = false := s.bufFull_eq_false_iff.mpr (by simp [hcap])
    rw [decodeStimulus, if_neg hb, exec_append_of_room hroom, State.takeByte_of_ne s hb]

/-- A run over bytes and NoData events takes the bytes one after another. -/
theorem run_eq_foldl_takeByte {s : State} {xs : List Stimulus} (hcap : s.params.bufCap = none)
    (hwork : s.work = Work.none) (hreset : Stimulus.reset ∉ xs) (rest : List Stimulus) :
    Host.Core.run Sys2Proof.core xs.length { s with input := xs ++ rest } =
      .next { (bytesOf xs).foldl State.takeByte s with input := rest } := by
  induction xs generalizing s with
  | nil => rfl
  | cons x xs ih =>
    have htail : Stimulus.reset ∉ xs := List.not_mem_of_not_mem_cons hreset
    rw [List.length_cons, List.cons_append]
    cases x with
    | reset => exact absurd List.mem_cons_self hreset
    | noData => exact (run_next (step_cons_noData hwork _)).trans (ih hcap hwork htail)
    | byte b =>
      have hstep := step_cons_next (exec_byte hcap b) (xs ++ rest)
      rw [State.dropWork_of_none (by rw [State.takeByte_work, hwork])] at hstep
      exact (run_next hstep).trans
        (ih (by rw [State.takeByte_params, hcap]) (by rw [State.takeByte_work, hwork]) htail)

/-! ## Segmentation (R84) -/

/-- Bytes that are no delimiter only lengthen BUF. -/
theorem foldl_takeByte_of_no_delim {g : List Byte} (h : Config.delim ∉ g) (s : State) :
    g.foldl State.takeByte s = { s with buf := s.buf ++ g } := by
  induction g generalizing s with
  | nil => rw [List.append_nil]; rfl
  | cons b g ih =>
    have hb : b ≠ Config.delim := fun heq => h (heq ▸ List.mem_cons_self)
    rw [List.foldl_cons, State.takeByte_of_ne s hb, ih (List.not_mem_of_not_mem_cons h), State.appendByte_buf,
      List.append_assoc]
    rfl

/-- What a delimiter releases: BUF, if it holds a byte (R82). -/
def released (buf : List Byte) : List Frame := if buf = [] then [] else [buf]

/-- A delimiter and the bytes up to the next release BUF and leave themselves in it. -/
theorem foldl_takeByte_delim_cons {g : List Byte} (h : Config.delim ∉ g) (s : State) (buf : List Byte) :
    (Config.delim :: g).foldl State.takeByte { s with buf := buf } =
      { (released buf).foldl State.processFrame s with buf := Config.delim :: g } := by
  rw [List.foldl_cons, foldl_takeByte_of_no_delim h]
  by_cases hbuf : buf = []
  · rw [State.takeByte_delim_empty (s := { s with buf := buf }) hbuf, released, if_pos hbuf]
    rfl
  · rw [State.takeByte_delim (s := { s with buf := buf }) hbuf, released, if_neg hbuf]
    rfl

/-- The first delimiter releases what stands before it; after it the stream begins with that delimiter's piece. -/
theorem candidates_cons (pre g : List Byte) (segs : List (List Byte)) :
    candidates pre (g :: segs) = released pre ++ candidates (Config.delim :: g) segs := by
  cases segs <;> simp [candidates, released]

theorem tailBytes_cons (pre g : List Byte) (segs : List (List Byte)) :
    tailBytes pre (g :: segs) = tailBytes (Config.delim :: g) segs := by
  cases segs <;> simp [tailBytes, List.getLast?_cons]

/-- The delimited pieces that follow `pre` in BUF release its candidate frames in order and leave the last piece. -/
theorem foldl_takeByte_segments {segs : List (List Byte)} (h : ∀ g ∈ segs, Config.delim ∉ g) (s : State)
    (pre : List Byte) :
    (segs.map fun g => Config.delim :: g).flatten.foldl State.takeByte { s with buf := pre } =
      { (candidates pre segs).foldl State.processFrame s with buf := tailBytes pre segs } := by
  induction segs generalizing s pre with
  | nil => simp [candidates, tailBytes]
  | cons g segs ih =>
    rw [List.map_cons, List.flatten_cons, List.foldl_append, foldl_takeByte_delim_cons (h g List.mem_cons_self),
      ih (fun g' hmem => h g' (List.mem_cons_of_mem g hmem)), candidates_cons, List.foldl_append, tailBytes_cons]

/-- Settles O17: the run takes the stream's bytes one after another; those before the first delimiter are appended to
the empty BUF, and each delimited piece after them releases what BUF holds. -/
theorem streamIsCutAtEveryDelimiter : Obligations.StreamIsCutAtEveryDelimiter := by
  intro s xs rest pre segs hcap hwork hbuf hinput hreset hbytes hpre hsegs
  have htaken : (bytesOf xs).foldl State.takeByte s =
      { (candidates pre segs).foldl State.processFrame s with buf := tailBytes pre segs } := by
    rw [hbytes, rejoin, List.foldl_append, foldl_takeByte_of_no_delim hpre, hbuf, List.nil_append,
      foldl_takeByte_segments hsegs]
  have hrun := run_eq_foldl_takeByte hcap hwork hreset rest
  rw [← hinput, htaken] at hrun
  exact hrun

end Sys2Proof.Machine
end

section
/-! PROOFS. The checksum validator (spec/41_checksum_validator.md): the length gate, the fields of a candidate frame,
the values its stages leave, what the checksum detects and what it does not steer. -/

namespace Sys2Proof.Machine

/-! ## The length gate (R90) -/

theorem State.staged_of_lt (s : State) {f : Frame} (h : f.length < 4) (t : State) :
    s.staged f t = { s with out := s.out ++ [.malformed f] } := if_pos h

theorem State.staged_of_le (s : State) {f : Frame} (h : 4 ≤ f.length) (t : State) : s.staged f t = t :=
  if_neg (Nat.not_lt.mpr h)

/-- Settles O18: CHECK_MIN and PROCESS_FRAME both raise MalformedFrame at the gate. -/
theorem shortCandidateIsMalformed : Obligations.ShortCandidateIsMalformed := by
  intro s f hlen
  constructor
  · exact congrArg Host.Outcome.next (s.staged_of_lt hlen _)
  · rw [exec_processFrame, State.processFrame, State.runFrame_gate s _ hlen]

/-! ## The fields of a frame and its checksum (R91 to R96) -/

section
variable (start fid n : Byte) (body : List Byte) (c : Byte)

theorem four_le_length_frame : 4 ≤ (start :: fid :: n :: (body ++ [c])).length := by simp

theorem cksRx_frame : cksRx (start :: fid :: n :: (body ++ [c])) = c :=
  cksRx_concat c (start :: fid :: n :: body)

theorem cksCalc_frame :
    cksCalc (start :: fid :: n :: (body ++ [c])) =
      BitVec.ofNat 8 (fid.toNat + n.toNat + (body.map BitVec.toNat).sum) ^^^ 0xFF#8 := by
  rw [Nat.add_assoc]
  exact cksCalc_cons_concat start c (fid :: n :: body)

end

/-- A payload that ends before the final byte does not depend on it. -/
theorem framePayload_of_le_body (start fid c : Byte) {n : Byte} {body : List Byte} (h : n.toNat ≤ body.length) :
    framePayload (start :: fid :: n :: (body ++ [c])) = body.take n.toNat := by
  rw [framePayload_cons, List.take_append_of_le_length h]

/-- Settles O21: the payload is the first N of the bytes that follow the header, or all of them where they are fewer. -/
theorem payloadIsClippedAtTheFrameEnd : Obligations.PayloadIsClippedAtTheFrameEnd := by
  intro start fid n body c
  rw [framePayload_cons]
  refine ⟨?_, fun k hk _ => ?_, fun h => ?_, fun h => ?_⟩
  · rw [List.length_take, List.length_append, List.length_singleton]
  · rw [List.getElem?_take_of_lt hk, Nat.add_comm 3 k]
    rfl
  · exact List.take_left' h
  · exact List.take_of_length_le (by simpa using h)

/-- Settles O30: the flag's comparison of two bytes is that of their values. -/
theorem frameRecordHoldsTheRawFields : Obligations.FrameRecordHoldsTheRawFields := by
  intro start fid n c body name st m
  rw [frameRec_frame]
  simp only [← BitVec.toNat_inj, BitVec.toNat_xor, BitVec.toNat_ofNat]

/-! ## The values the stages leave (R90 to R96, R116) -/

/-- Settles O19: past the gate each of the two stages writes its own value. -/
theorem gateAndSliceLeaveTheirValues : Obligations.GateAndSliceLeaveTheirValues := by
  intro s start fid n c body
  have hlen := four_le_length_frame start fid n body c
  constructor
  · simp only [exec, execCheckMin, s.staged_of_le hlen, State.setWork]
  · simp only [exec, execSlicePayload, s.staged_of_le hlen, State.setWork, framePayload_cons]

/-- Settles O20: past the gate each of the five stages writes its own value, read from the bytes of the frame. -/
theorem headerChecksumAndLookupLeaveTheirValues : Obligations.HeaderChecksumAndLookupLeaveTheirValues := by
  intro s start fid n c body
  have hlen := four_le_length_frame start fid n body c
  refine ⟨?_, ?_, ?_, ?_, ?_⟩
  · simp only [exec, execParseHeader, s.staged_of_le hlen, State.setWork, frameStart_cons, frameFid_cons, frameN_cons]
  · simp only [exec, execCksRx, s.staged_of_le hlen, State.setWork, cksRx_frame]
  · simp only [exec, execCksCalc, s.staged_of_le hlen, State.setWork, cksCalc_frame]
  · simp only [exec, execCksCompare, s.staged_of_le hlen, State.setWork, cksOk_frame]
  · simp only [exec, execLookup, s.staged_of_le hlen, State.setWork, frameFid_cons]

/-! ## What the checksum detects (R95, R99) -/

/-- The complement of a sum modulo 256 is the byte that completes the sum to 255. -/
theorem ofNat_xor_cksInv_eq_iff (sum : Nat) (c : Byte) :
    BitVec.ofNat 8 sum ^^^ Config.cksInv = c ↔ (sum + c.toNat) % 256 = 255 := by
  have hnot : BitVec.ofNat 8 sum ^^^ Config.cksInv = ~~~BitVec.ofNat 8 sum := BitVec.xor_allOnes
  have hc : c.toNat < 256 := c.isLt
  rw [hnot, ← BitVec.toNat_inj, BitVec.toNat_not, BitVec.toNat_ofNat]
  omega

/-- Settles O22: the bytes after the first are those the checksum covers and the final byte, which is to complete their
sum to 255. -/
theorem checksumMatchesExactlyAtSum255 : Obligations.ChecksumMatchesExactlyAtSum255 := by
  intro f hlen
  obtain ⟨start, rest, rfl⟩ := List.exists_cons_of_length_pos (show 0 < f.length by omega)
  obtain rfl | ⟨g, c, rfl⟩ := List.eq_nil_or_concat rest
  · exact absurd hlen (by simp)
  have hrx : cksRx (start :: (g ++ [c])) = c := cksRx_concat c (start :: g)
  rw [cksOk, beq_iff_eq, List.concat_eq_append, cksCalc_cons_concat, hrx, ofNat_xor_cksInv_eq_iff]
  simp

/-- The sum of the bytes after one is replaced, without truncated subtraction. -/
theorem sum_toNat_set {g : List Byte} {j : Nat} (h : j < g.length) (b : Byte) :
    ((g.set j b).map BitVec.toNat).sum + g[j].toNat = (g.map BitVec.toNat).sum + b.toNat := by
  induction g generalizing j with
  | nil => exact absurd h (Nat.not_lt_zero j)
  | cons a g ih =>
    cases j with
    | zero => simp; omega
    | succ j =>
      have := ih (j := j) (by simpa using h)
      simp only [List.set_cons_succ, List.map_cons, List.sum_cons, List.getElem_cons_succ]
      omega

/-- In a frame that matches, another value of any one byte after the first is a mismatch. -/
theorem cksOk_set_eq_false {f : Frame} {i : Nat} {b : Byte} (hpos : 1 ≤ i) (hlt : i < f.length) (hok : cksOk f = true)
    (hb : b ≠ f[i]) : cksOk (f.set i b) = false := by
  rw [← Bool.not_eq_true]
  intro hok'
  obtain ⟨j, rfl⟩ : ∃ j, i = j + 1 := ⟨i - 1, by omega⟩
  obtain ⟨start, g, rfl⟩ := List.exists_cons_of_length_pos (show 0 < f.length by omega)
  have hj : j < g.length := by simpa using hlt
  have hsum := (checksumMatchesExactlyAtSum255 _ (by omega)).mp hok
  have hsum' := (checksumMatchesExactlyAtSum255 _ (by rw [List.length_set]; omega)).mp hok'
  rw [List.set_cons_succ, List.drop_one, List.tail_cons] at hsum'
  rw [List.drop_one, List.tail_cons] at hsum
  rw [List.getElem_cons_succ] at hb
  have hset := sum_toNat_set hj b
  have hnew : b.toNat < 256 := b.isLt
  have hold : g[j].toNat < 256 := g[j].isLt
  exact hb (BitVec.eq_of_toNat_eq (by omega))

/-- Settles O24: a byte with one bit flipped is another byte. -/
theorem singleBitFlipIsDetected : Obligations.SingleBitFlipIsDetected := by
  intro f i k _ hpos hlt hk hok
  refine cksOk_set_eq_false hpos hlt hok fun heq => ?_
  rw [List.getD_eq_getElem _ _ hlt] at heq
  have hbit : (f[i] ^^^ BitVec.twoPow 8 k).getLsbD k = f[i].getLsbD k := by rw [heq]
  simp [hk] at hbit

/-! ## What the checksum does not steer (R97, R122) -/

/-- The outcome of a frame depends on its length and its payload alone, given the answer of the look-up. -/
theorem frameVerdict_congr {f f' : Frame} (hlen : f.length = f'.length) (hpayload : framePayload f = framePayload f')
    (pr : Params) (last : Option NameTag) (look : Look) :
    frameVerdict pr last look f = frameVerdict pr last look f' := by
  simp only [frameVerdict, hlen, hpayload]

/-- An outcome's records of two frames that differ in a final byte outside the payload are the same but for what that
byte decides. -/
theorem Verdict.map_eraseCks_record (v : Verdict) (start fid : Byte) {n : Byte} {body : List Byte} (c c' : Byte)
    (h : n.toNat ≤ body.length) :
    (v.record (start :: fid :: n :: (body ++ [c]))).map eraseCks =
      (v.record (start :: fid :: n :: (body ++ [c']))).map eraseCks := by
  have hframe : ∀ name status msg,
      eraseCks (.frame (frameRec (start :: fid :: n :: (body ++ [c])) name status msg)) =
        eraseCks (.frame (frameRec (start :: fid :: n :: (body ++ [c'])) name status msg)) := by
    intro name status msg
    simp only [frameRec_frame, eraseCks, List.take_append_of_le_length h]
  have hdrop : ∀ b, (start :: fid :: n :: (body ++ [b])).dropLast = start :: fid :: n :: body :=
    fun _ => List.dropLast_concat (l₁ := start :: fid :: n :: body)
  have hraw : eraseCks (.malformed (start :: fid :: n :: (body ++ [c]))) =
      eraseCks (.malformed (start :: fid :: n :: (body ++ [c']))) := by
    simp only [eraseCks, hdrop]
  cases v with
  | decoded | noDecoder | unknown | short => exact congrArg some (hframe _ _ _)
  | malformedGate | malformedDecode => exact congrArg some hraw
  | suppressed => rfl

/-- Settles O25: the two frames have the same answer of the look-up and the same payload, so the same outcome, and the
records of one outcome differ in what the final byte decides alone. -/
theorem checksumSteersNothing : Obligations.ChecksumSteersNothing := by
  intro s start fid n body c c' h
  have hpayload : framePayload (start :: fid :: n :: (body ++ [c])) =
      framePayload (start :: fid :: n :: (body ++ [c'])) := by
    rw [framePayload_of_le_body start fid c h, framePayload_of_le_body start fid c' h]
  have hverdict := frameVerdict_congr (by simp) hpayload s.params s.last (lookLut s.lut fid)
  simp only [State.processFrame, State.runFrame, frameFid_cons, hverdict, State.endFrame_last, State.endFrame_out,
    List.map_append, ← Option.toList_map, Verdict.map_eraseCks_record _ start fid c c' h, and_self]

end Sys2Proof.Machine
end

section
/-! PROOFS. The Integer Field Reader (spec/42_integer_field_reader.md): its sums as base-256 numbers, the guard and the
range rule, and its users: the integers of CAR_INFO mode 2, and the reads that can or cannot end a decode as
MalformedFrame. -/

namespace Sys2Proof.Machine

/-! ## The sums as base-256 numbers (R106, R107) -/

/-- One byte more: little-endian it is the new most significant byte. -/
theorem rdSum_le_succ (w : List Byte) (off cnt : Nat) :
    rdSum w off (cnt + 1) .le = rdSum w off cnt .le + 256 ^ cnt * (w.getD (off + cnt) 0#8).toNat := by
  have hpow : 2 ^ (8 * cnt) = 256 ^ cnt := Nat.pow_mul 2 8 cnt
  simp only [rdSum, List.range_succ, List.map_append, List.map_singleton, List.sum_append, List.sum_singleton]
  rw [Nat.shiftLeft_eq _ (8 * cnt), hpow, Nat.mul_comm]

/-- One byte more: big-endian it is the new least significant byte, and the others move up one place. -/
theorem rdSum_be_succ (w : List Byte) (off cnt : Nat) :
    rdSum w off (cnt + 1) .be = (w.getD (off + cnt) 0#8).toNat + 256 * rdSum w off cnt .be := by
  have hshift : ∀ i ∈ List.range cnt,
      (w.getD (off + i) 0#8).toNat <<< (8 * (cnt - i)) =
        256 * (w.getD (off + i) 0#8).toNat <<< (8 * (cnt - 1 - i)) := by
    intro i hi
    have hplace : 8 * (cnt - i) = 8 * (cnt - 1 - i) + 8 := by
      have := List.mem_range.mp hi
      omega
    rw [hplace, Nat.shiftLeft_add, Nat.shiftLeft_eq _ 8, Nat.mul_comm]
  simp only [rdSum, List.range_succ, List.map_append, List.map_singleton, List.sum_append, List.sum_singleton,
    Nat.add_sub_cancel, Nat.sub_self, Nat.mul_zero, Nat.shiftLeft_zero]
  rw [List.map_congr_left hshift, List.sum_map_mul_left, Nat.add_comm]

/-- The window of a read, one byte longer. -/
theorem take_succ_drop {w : List Byte} {off cnt : Nat} (h : off + cnt < w.length) :
    (w.drop off).take (cnt + 1) = (w.drop off).take cnt ++ [w.getD (off + cnt) 0#8] := by
  rw [List.take_add_one, List.getElem?_drop, List.getElem?_eq_getElem h, List.getD_eq_getElem _ _ h]
  rfl

theorem rdSum_le_eq_ofDigits {w : List Byte} {off cnt : Nat} (h : off + cnt ≤ w.length) :
    rdSum w off cnt .le = Nat.ofDigits 256 (((w.drop off).take cnt).map BitVec.toNat) := by
  induction cnt with
  | zero => rfl
  | succ cnt ih =>
    have hlen : (((w.drop off).take cnt).map BitVec.toNat).length = cnt := by simp; omega
    rw [rdSum_le_succ, ih (by omega), take_succ_drop h, List.map_append, Nat.ofDigits_append, hlen, List.map_singleton,
      Nat.ofDigits_singleton]

theorem rdSum_be_eq_ofDigits {w : List Byte} {off cnt : Nat} (h : off + cnt ≤ w.length) :
    rdSum w off cnt .be = Nat.ofDigits 256 (((w.drop off).take cnt).reverse.map BitVec.toNat) := by
  induction cnt with
  | zero => rfl
  | succ cnt ih =>
    rw [rdSum_be_succ, ih (by omega), take_succ_drop h, List.reverse_concat', List.map_cons, Nat.ofDigits_cons]

/-- The base-256 number of some bytes fits their bits. -/
theorem ofDigits_toNat_lt (bytes : List Byte) : Nat.ofDigits 256 (bytes.map BitVec.toNat) < 2 ^ (8 * bytes.length) := by
  have hdigit : ∀ x ∈ bytes.map BitVec.toNat, x < 256 := by
    intro x hx
    obtain ⟨b, -, rfl⟩ := List.mem_map.mp hx
    exact b.isLt
  calc Nat.ofDigits 256 (bytes.map BitVec.toNat)
      < 256 ^ (bytes.map BitVec.toNat).length := Nat.ofDigits_lt_base_pow_length (by decide) hdigit
    _ = 2 ^ (8 * bytes.length) := by rw [List.length_map, Nat.pow_mul]

theorem rdSum_lt {w : List Byte} {off cnt : Nat} (h : off + cnt ≤ w.length) (e : Endian) :
    rdSum w off cnt e < 2 ^ (8 * cnt) := by
  have hlen : ((w.drop off).take cnt).length = cnt := by simp; omega
  cases e with
  | le => simpa only [rdSum_le_eq_ofDigits h, hlen] using ofDigits_toNat_lt ((w.drop off).take cnt)
  | be => simpa only [rdSum_be_eq_ofDigits h, List.length_reverse, hlen] using
      ofDigits_toNat_lt ((w.drop off).take cnt).reverse

/-! ## The guard and the range rule (R108, R109) -/

theorem rd_of_guard {w : List Byte} {off : Nat} (h : w.length ≤ off + 1) (cnt : Nat) (e : Endian) :
    rd w off cnt e = .ok 0 := if_pos h

theorem rd_of_overrun {w : List Byte} {off cnt : Nat} (hguard : off + 1 < w.length) (h : w.length < off + cnt)
    (e : Endian) : rd w off cnt e = .error .malformed :=
  (if_neg (Nat.not_le.mpr hguard)).trans (if_pos h)

theorem rd_of_fits {w : List Byte} {off cnt : Nat} (hguard : off + 1 < w.length) (h : off + cnt ≤ w.length)
    (e : Endian) : rd w off cnt e = .ok (rdSum w off cnt e) := by
  rw [rd_ok_of_le h, if_neg (Nat.not_le.mpr hguard)]

/-- Everything a read can answer, in the order of R105. -/
theorem rd_cases (w : List Byte) (off cnt : Nat) (e : Endian) :
    rd w off cnt e = .ok 0 ∨ rd w off cnt e = .error .malformed ∨
    (off + cnt ≤ w.length ∧ rd w off cnt e = .ok (rdSum w off cnt e)) := by
  by_cases hguard : w.length ≤ off + 1
  · exact .inl (rd_of_guard hguard cnt e)
  by_cases hfits : off + cnt ≤ w.length
  · exact .inr (.inr ⟨hfits, rd_of_fits (by omega) hfits e⟩)
  · exact .inr (.inl (rd_of_overrun (by omega) (by omega) e))

/-! ## The two operations (R106 to R110) -/

theorem exec_rdle (w : List Byte) (off cnt : Nat) (s : State) :
    exec (.rdle w off cnt) s = .next { s with work := { s.work with rd := some (rd w off cnt .le) } } := rfl

theorem exec_rdbe (w : List Byte) (off cnt : Nat) (s : State) :
    exec (.rdbe w off cnt) s = .next { s with work := { s.work with rd := some (rd w off cnt .be) } } := rfl

/-- Settles O55: the three cases of R105's order, the last with the sum as a base-256 number. -/
theorem readerReadsBothOrders : Obligations.ReaderReadsBothOrders := by
  intro s w off cnt
  rw [exec_rdle, exec_rdbe]
  refine ⟨fun hguard => ?_, fun hguard hover => ?_, fun hguard hfits => ?_⟩
  · exact ⟨by rw [rd_of_guard hguard], by rw [rd_of_guard hguard]⟩
  · exact ⟨by rw [rd_of_overrun hguard hover], by rw [rd_of_overrun hguard hover]⟩
  · exact ⟨by rw [rd_of_fits hguard hfits, rdSum_le_eq_ofDigits hfits],
      by rw [rd_of_fits hguard hfits, rdSum_be_eq_ofDigits hfits]⟩

theorem rd_lt {w : List Byte} {off cnt v : Nat} {e : Endian} (h : rd w off cnt e = .ok v) : v < 2 ^ (8 * cnt) := by
  obtain hzero | hover | ⟨hfits, hsum⟩ := rd_cases w off cnt e
  · obtain rfl : 0 = v := Except.ok.inj (hzero.symm.trans h)
    exact Nat.two_pow_pos _
  · exact nomatch hover.symm.trans h
  · obtain rfl : rdSum w off cnt e = v := Except.ok.inj (hsum.symm.trans h)
    exact rdSum_lt hfits e

/-- A little-endian read and the big-endian read of its bytes reversed have the same digits. -/
theorem rd_le_eq_rd_be_reverse {w : List Byte} {off cnt : Nat} (hguard : off + 1 < w.length) (h : off + cnt ≤ w.length)
    (hcnt : 2 ≤ cnt) : rd w off cnt .le = rd (slice w off (off + cnt)).reverse 0 cnt .be := by
  have hslice : slice w off (off + cnt) = (w.drop off).take cnt := by
    rw [slice, List.drop_take, Nat.add_sub_cancel_left]
  have hlen : ((w.drop off).take cnt).reverse.length = cnt := by simp; omega
  rw [hslice, rd_of_fits hguard h, rd_of_fits (by omega) (by omega), rdSum_le_eq_ofDigits h,
    rdSum_be_eq_ofDigits (by omega), List.drop_zero, List.take_of_length_le (Nat.le_of_eq hlen), List.reverse_reverse]

/-- Settles O56: a sum of whole bytes fits their bits, and 0 fits any. -/
theorem readerResultIsBoundedAndReversible : Obligations.ReaderResultIsBoundedAndReversible :=
  ⟨fun _ _ _ _ _ h => rd_lt h, fun _ _ _ hguard h hcnt => rd_le_eq_rd_be_reverse hguard h hcnt⟩

/-! ## Direct index (R10, R111) -/

theorem byteAt_eq_ok_iff {w : List Byte} {i : Nat} {b : Byte} : byteAt w i = .ok b ↔ w[i]? = some b := by
  unfold byteAt
  cases w[i]? with
  | some b' => simp only [Except.ok.injEq, Option.some.injEq]
  | none => exact iff_of_false nofun nofun

theorem byteAt_of_le {w : List Byte} {i : Nat} (h : w.length ≤ i) : byteAt w i = .error .malformed := by
  simp only [byteAt, List.getElem?_eq_none h]

/-! ## The integers of CAR_INFO mode 2 (R158) -/

/-- One integer of mode 2 as the field map holds it. -/
def ciEntry (fd : CiField) (v : Nat) : Label × FieldValue := (fd.name, .number (quantity v (scaleDen fd.scale)))

theorem quantity_eq_div (n : Int) (d : Nat) : quantity n d = (n : Rat) / d := Rat.mkRat_eq_div n d

theorem readCiField_single {fd : CiField} (h : fd.cnt = 1) (p : List Byte) :
    readCiField p fd = (byteAt p fd.off).map BitVec.toNat := if_pos h

theorem readCiField_several {fd : CiField} (h : fd.cnt ≠ 1) (p : List Byte) :
    readCiField p fd = rd p fd.off fd.cnt .be := if_neg h

/-- A read never ends as ShortPayload. -/
theorem readCiField_cases (p : List Byte) (fd : CiField) :
    (∃ v, readCiField p fd = .ok v) ∨ readCiField p fd = .error .malformed := by
  by_cases h : fd.cnt = 1
  · rw [readCiField_single h]
    cases hb : p[fd.off]? with
    | some b => exact .inl ⟨b.toNat, by rw [byteAt_eq_ok_iff.mpr hb]; rfl⟩
    | none => exact .inr (by rw [byteAt_of_le (List.getElem?_eq_none_iff.mp hb)]; rfl)
  · rw [readCiField_several h]
    obtain hzero | hover | ⟨-, hsum⟩ := rd_cases p fd.off fd.cnt .be
    · exact .inl ⟨_, hzero⟩
    · exact .inr hover
    · exact .inl ⟨_, hsum⟩

theorem readCiFields_cons_ok {p : List Byte} {fd : CiField} {v : Nat} (h : readCiField p fd = .ok v)
    (rest : List CiField) : readCiFields p (fd :: rest) = (readCiFields p rest).map (ciEntry fd v :: ·) := by
  rw [readCiFields, h]
  cases readCiFields p rest <;> rfl

theorem readCiFields_cons_error {p : List Byte} {fd : CiField} {e : DecodeError} (h : readCiField p fd = .error e)
    (rest : List CiField) : readCiFields p (fd :: rest) = .error e := by
  rw [readCiFields, h]
  rfl

theorem readCiFields_eq_zipWith {p : List Byte} {fds : List CiField} {vs : List Nat}
    (h : List.Forall₂ (fun fd v => readCiField p fd = .ok v) fds vs) :
    readCiFields p fds = .ok (List.zipWith ciEntry fds vs) := by
  induction h with
  | nil => rfl
  | cons hread _ ih =>
    rw [readCiFields_cons_ok hread, ih]
    rfl

/-- One read that meets the range rule ends the list, wherever it stands. -/
theorem readCiFields_malformed {p : List Byte} {fds : List CiField} {fd : CiField} (hmem : fd ∈ fds)
    (h : readCiField p fd = .error .malformed) : readCiFields p fds = .error .malformed := by
  induction fds with
  | nil => exact absurd hmem List.not_mem_nil
  | cons first rest ih =>
    obtain ⟨v, hfirst⟩ | hfirst := readCiField_cases p first
    · obtain rfl | hrest := List.mem_cons.mp hmem
      · exact nomatch h.symm.trans hfirst
      · rw [readCiFields_cons_ok hfirst, ih hrest]
        rfl
    · exact readCiFields_cons_error hfirst rest

/-- Where every read lies inside the payload, the list gives its big-endian sums. -/
theorem readCiFields_of_fits {p : List Byte} {fds : List CiField} (h : ∀ fd ∈ fds, fd.off + fd.cnt ≤ p.length) :
    readCiFields p fds = .ok (fds.map fun fd => ciEntry fd (rdSum p fd.off fd.cnt .be)) := by
  have hreads : List.Forall₂ (fun fd v => readCiField p fd = .ok v) fds
      (fds.map fun fd => rdSum p fd.off fd.cnt .be) := by
    rw [List.forall₂_map_right_iff, List.forall₂_same]
    exact fun fd hfd => readCiField_ok_of_le (h fd hfd)
  rw [readCiFields_eq_zipWith hreads, List.zipWith_map_right, List.zipWith_self]

theorem decodeCiMode2_of_fits {p : List Byte} {fds : List CiField} (h : ∀ fd ∈ fds, fd.off + fd.cnt ≤ p.length) :
    decodeCiMode2 p (some fds) =
      .ok (.carInfoMode2 (fds.map fun fd => ciEntry fd (rdSum p fd.off fd.cnt .be))) := by
  rw [decodeCiMode2, if_pos (ciFits_iff.mpr h), readCiFields_of_fits h]
  rfl

theorem decodeCiMode2_of_not_fits {p : List Byte} {fds : List CiField}
    (h : ¬ ∀ fd ∈ fds, fd.off + fd.cnt ≤ p.length) : decodeCiMode2 p (some fds) = .error .shortPayload := by
  rw [decodeCiMode2, if_neg (mt ciFits_iff.mp h)]

/-- Settles O51: the list is read field by field, so it answers what its reads answer; the length test comes before. -/
theorem carInfoMode2ReadsBigEndian : Obligations.CarInfoMode2ReadsBigEndian := by
  intro p fds
  refine ⟨fun vs hvs => ?_, ?_, fun hfits => ?_, ?_⟩
  · have hreads : List.Forall₂ (fun fd v => readCiField p fd = .ok v) fds vs := by
      refine hvs.imp fun fd v h => ?_
      by_cases hcnt : fd.cnt = 1
      · obtain ⟨b, hb, rfl⟩ := (if_pos hcnt).mp h
        rw [readCiField_single hcnt, byteAt_eq_ok_iff.mpr hb]
        rfl
      · rw [readCiField_several hcnt]
        exact (if_neg hcnt).mp h
    rw [readCiFields_eq_zipWith hreads]
    -- The statement lifts the list of naturals to rationals in the list monad.
    simp only [bind_pure_comp, List.map_eq_map, List.zipWith_map_right]
    congr 2
    funext fd v
    simp only [ciEntry, quantity_eq_div]
    cases fd.scale <;> simp [scaleDen]
  · rintro ⟨fd, hmem, h⟩
    refine readCiFields_malformed hmem ?_
    by_cases hcnt : fd.cnt = 1
    · rw [readCiField_single hcnt, byteAt_of_le ((if_pos hcnt).mp h)]
      rfl
    · rw [readCiField_several hcnt]
      exact (if_neg hcnt).mp h
  · exact ⟨_, readCiFields_of_fits hfits, decodeCiMode2_of_fits hfits⟩
  · rintro ⟨fd, hmem, h⟩
    exact decodeCiMode2_of_not_fits fun hfits => absurd (hfits fd hmem) (by omega)

/-! ## CAR_INFO by its mode (R158) -/

/-- The record an identified frame leaves for each answer of its decode (R124, R181). -/
def decodeRecord (f : Frame) (name : NameTag) : Except DecodeError Message → Record
  | .ok m => .frame (frameRec f (some name) .decoded (some m))
  | .error .shortPayload => .frame (frameRec f (some name) .shortPayload none)
  | .error .malformed => .malformed f

/-- A decoder's row on a frame that is not a repeat. -/
theorem exec_decoderRow_passed {s : State} {f : Frame} {name : NameTag} (d : Decoder) (h : 4 ≤ f.length)
    (hlast : s.last ≠ some name) :
    exec (decoderRow d name f) s =
      .next (passed s name (decodeRecord f name (decodePayload s.params d (framePayload f)))) := by
  rw [exec_decoderRow, State.runFrame_decode s h hlast]
  rfl

theorem decodePayload_of_lt {pr : Params} {d : Decoder} {p : List Byte} (h : p.length < minLen pr d) :
    decodePayload pr d p = .error .shortPayload := if_pos h

theorem decodePayload_of_le {pr : Params} {d : Decoder} {p : List Byte} (h : minLen pr d ≤ p.length) :
    decodePayload pr d p = decodeBody pr d p := if_neg (Nat.not_lt.mpr h)

theorem decodePayload_carInfo_nil (pr : Params) : decodePayload pr .carInfo [] = .error .shortPayload := rfl

section
variable (pr : Params) (rest : List Byte)

theorem decodePayload_carInfo_mode1 :
    decodePayload pr .carInfo (1#8 :: rest) =
      if (1#8 :: rest).length < Config.mlCarInfo 1#8 then .error .shortPayload
      else orShort .carInfoMode1 (Config.ciMode1Layout (1#8 :: rest)) := rfl

theorem decodePayload_carInfo_mode2 :
    decodePayload pr .carInfo (2#8 :: rest) =
      if (2#8 :: rest).length < Config.mlCarInfo 2#8 then .error .shortPayload
      else decodeCiMode2 (2#8 :: rest) (Config.ciMode2Layout (2#8 :: rest)) := rfl

theorem decodePayload_carInfo_mode3 :
    decodePayload pr .carInfo (3#8 :: rest) =
      if (3#8 :: rest).length < Config.mlCarInfo 3#8 then .error .shortPayload
      else orShort .carInfoMode3 (Config.ciMode3Layout (3#8 :: rest)) := rfl

theorem decodePayload_carInfo_unknownMode {mode : Byte} (h1 : mode ≠ 1#8) (h2 : mode ≠ 2#8) (h3 : mode ≠ 3#8) :
    decodePayload pr .carInfo (mode :: rest) = .ok (.carInfoUnknownMode mode) :=
  (if_neg h1).trans ((if_neg h2).trans (if_neg h3))

end

/-- An integer of mode 2 that lies inside the payload, as a scaled base-256 number (R107, R158). -/
theorem ciEntry_rdSum {p : List Byte} {fd : CiField} (h : fd.off + fd.cnt ≤ p.length) :
    ciEntry fd (rdSum p fd.off fd.cnt .be) =
      (fd.name, .number
        (((Nat.ofDigits 256 (((p.drop fd.off).take fd.cnt).reverse.map BitVec.toNat) : Nat) : Rat) /
          (match fd.scale with
            | .one => 1
            | .tenth => 10
            | .hundredth => 100))) := by
  rw [ciEntry, quantity_eq_div, rdSum_be_eq_ofDigits h]
  cases fd.scale <;> rfl

/-- Settles O50: the record is that of the decode, which goes by the mode byte; in mode 2 each big-endian sum is a
base-256 number of the payload's bytes. -/
theorem carInfoReportsItsMode : Obligations.CarInfoReportsItsMode := by
  intro s f name hlen hlast
  have hexec : exec (.carInfo name f) s =
      .next (passed s name (decodeRecord f name (decodePayload s.params .carInfo (framePayload f)))) :=
    exec_decoderRow_passed .carInfo hlen hlast
  rw [hexec]
  constructor
  · intro mode rest hpayload
    rw [hpayload]
    refine ⟨fun h1 h2 h3 => ?_, ?_, ?_, ?_⟩
    · rw [decodePayload_carInfo_unknownMode _ _ h1 h2 h3]
      rfl
    · rintro rfl
      rw [decodePayload_carInfo_mode1, apply_ite (decodeRecord f name)]
      cases Config.ciMode1Layout (1#8 :: rest) <;> rfl
    · rintro rfl
      rw [decodePayload_carInfo_mode2, apply_ite (decodeRecord f name)]
      cases Config.ciMode2Layout (2#8 :: rest) with
      | none => rfl
      | some fds =>
        by_cases hfits : ∀ fd ∈ fds, fd.off + fd.cnt ≤ (2#8 :: rest).length
        · rw [decodeCiMode2_of_fits hfits, List.map_congr_left fun fd hfd => ciEntry_rdSum (hfits fd hfd)]
          simp only [if_pos hfits]
          rfl
        · rw [decodeCiMode2_of_not_fits hfits]
          simp only [if_neg hfits]
          rfl
    · rintro rfl
      rw [decodePayload_carInfo_mode3, apply_ite (decodeRecord f name)]
      cases Config.ciMode3Layout (3#8 :: rest) <;> rfl
  · intro hpayload
    rw [hpayload, decodePayload_carInfo_nil]
    rfl

/-! ## Where a decode can end as MalformedFrame (R109, R184) -/

/-- A read or a decode does not end as MalformedFrame. -/
def NotMalformed {α : Type} (x : Except DecodeError α) : Prop := x ≠ .error .malformed

theorem NotMalformed.ok {α : Type} (v : α) : NotMalformed (.ok v) := nofun

theorem NotMalformed.shortPayload {α : Type} : NotMalformed (α := α) (.error .shortPayload) := nofun

/-- Neither the first part ends as MalformedFrame nor, on a value it answers, does what follows. -/
theorem NotMalformed.bind {α β : Type} {x : Except DecodeError α} {g : α → Except DecodeError β} (hx : NotMalformed x)
    (hg : ∀ v, x = .ok v → NotMalformed (g v)) : NotMalformed (x >>= g) := by
  cases x with
  | ok v => exact hg v rfl
  | error e =>
    cases e with
    | shortPayload => exact .shortPayload
    | malformed => exact absurd rfl hx

theorem NotMalformed.byteAt {w : List Byte} {i : Nat} (h : i < w.length) : NotMalformed (byteAt w i) := by
  rw [byteAt_eq_ok_iff.mpr (List.getElem?_eq_getElem h)]
  exact .ok _

theorem NotMalformed.rd {w : List Byte} {off cnt : Nat} (h : off + cnt ≤ w.length) (e : Endian) :
    NotMalformed (rd w off cnt e) := by
  rw [rd_ok_of_le h]
  exact .ok _

theorem NotMalformed.orShort (wrap : FieldMap → Message) (fields : Option FieldMap) :
    NotMalformed (orShort wrap fields) := by
  cases fields with
  | none => exact .shortPayload
  | some m => exact .ok _

/-- Mode 2 tests its reads against the payload before it makes them (entry 13). -/
theorem NotMalformed.decodeCiMode2 (p : List Byte) (layout : Option (List CiField)) :
    NotMalformed (decodeCiMode2 p layout) := by
  cases layout with
  | none => exact .shortPayload
  | some fds =>
    by_cases hfits : ∀ fd ∈ fds, fd.off + fd.cnt ≤ p.length
    · rw [decodeCiMode2_of_fits hfits]
      exact .ok _
    · rw [decodeCiMode2_of_not_fits hfits]
      exact .shortPayload

theorem NotMalformed.decodeCarInfo {p : List Byte} (h : 1 ≤ p.length) : NotMalformed (decodeCarInfo p) := by
  refine .bind (.byteAt h) fun mode _ => ?_
  split_ifs
  · exact .shortPayload
  · exact .orShort _ _
  · exact .shortPayload
  · exact .decodeCiMode2 _ _
  · exact .shortPayload
  · exact .orShort _ _
  · exact .ok _

/-- The unit bits are the two low bits of their byte, and 11 alone is no unit (R154). -/
theorem NotMalformed.tpmsUnitScale {b : Byte} (h : b.toNat % 4 ≠ 3) : NotMalformed (tpmsUnitScale b) := by
  have hbits : fieldOf b 1 0 = b.toNat % 4 := Nat.and_two_pow_sub_one_eq_mod b.toNat 2
  obtain hk | hk | hk : fieldOf b 1 0 = 0 ∨ fieldOf b 1 0 = 1 ∨ fieldOf b 1 0 = 2 := by omega
  all_goals
    simp only [Machine.tpmsUnitScale, hk]
    exact .ok _

theorem NotMalformed.decodeTpms {p : List Byte} (h : 6 ≤ p.length) (hunit : ∀ b, p[0]? = some b → b.toNat % 4 ≠ 3) :
    NotMalformed (decodeTpms p) := by
  refine .bind (.byteAt (by omega)) fun b0 hb0 => ?_
  iterate 5 refine .bind (.byteAt (by omega)) fun _ _ => ?_
  exact .bind (.tpmsUnitScale (hunit b0 (byteAt_eq_ok_iff.mp hb0))) fun _ _ => .ok _

/-- Every read of the layouts that are parameters lies inside the shortest payload its decoder accepts (R141). -/
structure LayoutsFit (pr : Params) : Prop where
  speed : pr.bfOffSpeed + 2 ≤ pr.mlBasicFly
  time : pr.bfOffTime + 2 ≤ pr.mlBasicFly
  mileage : pr.bfOffMileage + 2 ≤ pr.mlBasicFly
  unit : pr.bfOffUnit + 1 ≤ pr.mlBasicFly
  travel0 : pr.toOff.k0 + 2 ≤ pr.mlTravelOil
  travel1 : pr.toOff.k1 + 2 ≤ pr.mlTravelOil
  travel2 : pr.toOff.k2 + 2 ≤ pr.mlTravelOil
  travel3 : pr.toOff.k3 + 2 ≤ pr.mlTravelOil
  travel4 : pr.toOff.k4 + 2 ≤ pr.mlTravelOil
  travel5 : pr.toOff.k5 + 2 ≤ pr.mlTravelOil
  travelUnit : 1 ≤ pr.mlTravelOil

theorem layoutsFit_of_paramsConform {pr : Params} (h : paramsConform pr = true) : LayoutsFit pr := by
  simp only [paramsConform, Bool.and_eq_true, decide_eq_true_eq] at h
  constructor <;> tauto

theorem NotMalformed.decodeBasicFly {pr : Params} {p : List Byte} (hfit : LayoutsFit pr)
    (h : pr.mlBasicFly ≤ p.length) : NotMalformed (decodeBasicFly pr p) :=
  .bind (.rd (hfit.speed.trans h) .be) fun _ _ =>
  .bind (.rd (hfit.time.trans h) .be) fun _ _ =>
  .bind (.rd (hfit.mileage.trans h) .be) fun _ _ =>
  .bind (.byteAt (hfit.unit.trans h)) fun _ _ => .ok _

theorem NotMalformed.decodeTravelOil {pr : Params} {p : List Byte} (hfit : LayoutsFit pr)
    (h : pr.mlTravelOil ≤ p.length) : NotMalformed (decodeTravelOil pr p) :=
  .bind (.byteAt (hfit.travelUnit.trans h)) fun _ _ =>
  .bind (.rd (hfit.travel0.trans h) .be) fun _ _ =>
  .bind (.rd (hfit.travel1.trans h) .be) fun _ _ =>
  .bind (.rd (hfit.travel2.trans h) .be) fun _ _ =>
  .bind (.rd (hfit.travel3.trans h) .be) fun _ _ =>
  .bind (.rd (hfit.travel4.trans h) .be) fun _ _ =>
  .bind (.rd (hfit.travel5.trans h) .be) fun _ _ => .ok _

/-- With consistent layouts every decoder reads inside the payload once its length test has passed, so nothing but
TPMS's unit bits is left to raise MalformedFrame. -/
theorem NotMalformed.decodeBody {pr : Params} {d : Decoder} {p : List Byte} (hfit : LayoutsFit pr)
    (hlen : minLen pr d ≤ p.length) (hunit : d = .tpms → ∀ b, p[0]? = some b → b.toNat % 4 ≠ 3) :
    NotMalformed (decodeBody pr d p) := by
  cases d with
  | tpms => exact .decodeTpms hlen (hunit rfl)
  | basicFly => exact .decodeBasicFly hfit hlen
  | travelOil => exact .decodeTravelOil hfit hlen
  | carInfo => exact .decodeCarInfo hlen
  | radarFront | radarRear | oilElec | swcAngle | carDoor | acState | dataRequest | acSetting =>
    simp only [minLen] at hlen
    repeat refine .bind (.byteAt (by omega)) fun _ _ => ?_
    exact .ok _

/-- Settles O37: below its minimum a decode is ShortPayload, and from there on nothing but unit bits 11 is malformed. -/
theorem onlyTpmsUnitBitsAreMalformed : Obligations.OnlyTpmsUnitBitsAreMalformed := by
  intro pr d p hconform hmalformed
  obtain hlen | hlen := Nat.lt_or_ge p.length (minLen pr d)
  · exact nomatch (decodePayload_of_lt hlen).symm.trans hmalformed
  · by_contra hnot
    have hunit : d = .tpms → ∀ b, p[0]? = some b → b.toNat % 4 ≠ 3 := fun hd b hb hbits => hnot ⟨hd, b, hb, hbits⟩
    exact NotMalformed.decodeBody (layoutsFit_of_paramsConform hconform) hlen hunit
      ((decodePayload_of_le hlen).symm.trans hmalformed)

end Sys2Proof.Machine
end

section
/-! PROOFS. The dispatcher (spec/43_dispatcher_lut.md): the stages that the answer of the look-up steers, PROCESS_FRAME as
the first outcome that applies and as its rows in order, the frames that do not break a run. -/

namespace Sys2Proof.Machine

/-! ## The stages that the answer of the look-up steers (R119 to R121, R131 to R133) -/

section
variable {s : State} {f : Frame}

theorem exec_suppressTest_miss (hlen : 4 ≤ f.length) (hlook : lookLut s.lut (frameFid f) = .miss) :
    exec (.suppressTest f) s = .next s := by
  simp only [exec, execSuppressTest, s.staged_of_le hlen, hlook]

theorem exec_suppressTest_hit {name : NameTag} {dec : Option Decoder} (hlen : 4 ≤ f.length)
    (hlook : lookLut s.lut (frameFid f) = .hit name dec) :
    exec (.suppressTest f) s = .next (s.setWork { s.work with drop := some (decide (s.last = some name)) }) := by
  simp only [exec, execSuppressTest, s.staged_of_le hlen, hlook]

theorem exec_suppressUpdate_miss (hlen : 4 ≤ f.length) (hlook : lookLut s.lut (frameFid f) = .miss) :
    exec (.suppressUpdate f) s = .next s := by
  simp only [exec, execSuppressUpdate, s.staged_of_le hlen, hlook]

theorem exec_suppressUpdate_hit {name : NameTag} {dec : Option Decoder} (hlen : 4 ≤ f.length)
    (hlook : lookLut s.lut (frameFid f) = .hit name dec) :
    exec (.suppressUpdate f) s = .next (s.setLast name) := by
  simp only [exec, execSuppressUpdate, s.staged_of_le hlen, hlook]

/-- The decoder that the LUT gives a frame, if its id hits and its entry has one (R120). -/
def routedDecoder : Look → Option Decoder
  | .miss => none
  | .hit _ dec => dec

theorem exec_dispatch_unrouted (hlen : 4 ≤ f.length) (hlook : routedDecoder (lookLut s.lut (frameFid f)) = none) :
    exec (.dispatch f) s = .next s := by
  simp only [exec, execDispatch, s.staged_of_le hlen]
  split
  · next name d hhit => rw [hhit] at hlook; cases hlook
  · rfl

theorem exec_dispatch_routed {name : NameTag} {d : Decoder} (hlen : 4 ≤ f.length)
    (hlook : lookLut s.lut (frameFid f) = .hit name (some d)) :
    exec (.dispatch f) s = .next (s.setWork { s.work with routed := some (d, framePayload f) }) := by
  simp only [exec, execDispatch, s.staged_of_le hlen, hlook]

theorem exec_decode_unrouted (hlen : 4 ≤ f.length) (hlook : routedDecoder (lookLut s.lut (frameFid f)) = none) :
    exec (.decode f) s = .next s := by
  simp only [exec, execDecode, s.staged_of_le hlen]
  split
  · next name d hhit => rw [hhit] at hlook; cases hlook
  · rfl

theorem exec_decode_routed {name : NameTag} {d : Decoder} (hlen : 4 ≤ f.length)
    (hlook : lookLut s.lut (frameFid f) = .hit name (some d)) :
    exec (.decode f) s =
      .next (s.setWork { s.work with result := some (decodePayload s.params d (framePayload f)) }) := by
  simp only [exec, execDecode, s.staged_of_le hlen, hlook]

end

/-- Settles O27: past the gate and under a decoder the two stages write their own values, and a decode goes by the length
of the payload. -/
theorem dispatchRoutesAndDecodeDecodes : Obligations.DispatchRoutesAndDecodeDecodes := by
  intro s f name d hlen hlook
  refine ⟨exec_dispatch_routed hlen hlook, fun hshort => ?_, fun hlong => ?_⟩
  · rw [exec_decode_routed hlen hlook, decodePayload_of_lt hshort, State.setWork]
  · rw [exec_decode_routed hlen hlook, decodePayload_of_le hlong, State.setWork]

/-- Settles O28: an id that misses gives no name to test or to store, and no decoder. -/
theorem unidentifiedFrameLeavesTheSuppressorAlone : Obligations.UnidentifiedFrameLeavesTheSuppressorAlone := by
  intro s f hlen hmiss
  have hunrouted : routedDecoder (lookLut s.lut (frameFid f)) = none := congrArg routedDecoder hmiss
  exact ⟨exec_suppressTest_miss hlen hmiss, exec_suppressUpdate_miss hlen hmiss,
    exec_dispatch_unrouted hlen hunrouted, exec_decode_unrouted hlen hunrouted⟩

/-- Settles O35: a payload below the minimum decodes to ShortPayload, and a decoder's row reports what the decode gives. -/
theorem shortPayloadIsReportedAndNameKept : Obligations.ShortPayloadIsReportedAndNameKept := by
  intro s f name d hlen hlast hshort
  rw [exec_decoderRow_passed d hlen hlast, decodePayload_of_lt hshort, decodeRecord]

/-! ## PROCESS_FRAME takes the first outcome that applies (R187) -/

theorem State.processFrame_of_look {s : State} {f : Frame} {look : Look} (h : lookLut s.lut (frameFid f) = look) :
    s.processFrame f = s.runFrame look f := by
  rw [State.processFrame, h]

theorem State.runFrame_decodeRecord (s : State) {name : NameTag} {d : Decoder} {f : Frame} (hlen : 4 ≤ f.length)
    (hlast : s.last ≠ some name) :
    s.runFrame (.hit name (some d)) f =
      passed s name (decodeRecord f name (decodePayload s.params d (framePayload f))) :=
  Host.Outcome.next.inj ((exec_decoderRow d name f s).symm.trans (exec_decoderRow_passed d hlen hlast))

/-- Settles O29: PROCESS_FRAME is the per-frame procedure under the answer of the look-up, whose outcomes are those of a
miss, a repeat, an entry without a decoder, and the three answers of a decode. -/
theorem processFrameTakesTheFirstOutcome : Obligations.ProcessFrameTakesTheFirstOutcome := by
  intro s f hlen
  refine ⟨fun hmiss => ?_, fun name dec hhit => ⟨fun hlast => ?_, fun hlast => ⟨?_, ?_⟩⟩⟩
  · rw [exec_processFrame, State.processFrame_of_look hmiss, State.runFrame_miss s hlen]
  · rw [exec_processFrame, State.processFrame_of_look hhit, State.runFrame_suppressed s hlen hlast]
  · rintro rfl
    rw [exec_processFrame, State.processFrame_of_look hhit, State.runFrame_noDecoder s hlen hlast]
  · rintro d rfl
    rw [exec_processFrame, State.processFrame_of_look hhit, State.runFrame_decodeRecord s hlen hlast]
    refine ⟨fun hdec => ?_, fun hdec => ?_, fun m hdec => ?_⟩ <;> rw [hdec, decodeRecord]

/-! ## PROCESS_FRAME is its rows in order (R117) -/

/-- The per-frame values after the rows up to LOOKUP: those read from the frame and the answer of the look-up are written,
whatever was there before (R90 to R96, R116). -/
def Work.readFrame (w : Work) (look : Look) (f : Frame) : Work :=
  { w with
    frame := some f
    start := some (frameStart f)
    fid := some (frameFid f)
    n := some (frameN f)
    payload := some (framePayload f)
    cksRx := some (Machine.cksRx f)
    cksCalc := some (Machine.cksCalc f)
    cksOk := some (Machine.cksOk f)
    look := some look }

/-- The per-frame values after DISPATCH and DECODE: where the entry has a decoder, what is routed to it and what it answers
(R120, R121). -/
def Work.route (w : Work) (pr : Params) (dec : Option Decoder) (f : Frame) : Work :=
  { w with
    routed := (dec.map fun d => (d, framePayload f)).or w.routed
    result := (dec.map fun d => decodePayload pr d (framePayload f)).or w.result }

/-- The per-frame values that the rows after LOOKUP leave on an identified frame: whether it is a repeat (R131), and those
of its decoder. -/
def Work.steer (w : Work) (s : State) (name : NameTag) (dec : Option Decoder) (f : Frame) : Work :=
  { w.route s.params dec f with drop := some (decide (s.last = some name)) }

/-- The rows of R117 up to LOOKUP. -/
def readRows (f : Frame) : List Instr :=
  [.checkMin f, .parseHeader f, .slicePayload f, .cksRx f, .cksCalc f, .cksCompare f, .lookup f]

/-- The rows of R117 after LOOKUP, which the answer of the look-up steers. -/
def steeredRows (f : Frame) : List Instr := [.suppressTest f, .suppressUpdate f, .dispatch f, .decode f]

theorem frameRows_eq_append (f : Frame) : frameRows f = readRows f ++ steeredRows f := rfl

theorem runRows_cons {i : Instr} {s t : State} (h : exec i s = .next t) (is : List Instr) :
    runRows (i :: is) s = runRows is t := by
  simp only [runRows, h]

theorem runRows_append (is js : List Instr) {s t : State} (h : runRows is s = .next t) :
    runRows (is ++ js) s = runRows js t := by
  induction is generalizing s with
  | nil => cases h; rfl
  | cons i is ih =>
    cases hi : exec i s with
    | next u =>
      rw [runRows_cons hi] at h
      rw [List.cons_append, runRows_cons hi, ih h]
    | fault r | refused r => simp only [runRows, hi, reduceCtorEq] at h

/-- Up to LOOKUP the rows of a frame past the gate write per-frame values and nothing else. -/
theorem runRows_readRows {f : Frame} (hlen : 4 ≤ f.length) (s : State) :
    runRows (readRows f) s = .next (s.setWork (s.work.readFrame (lookLut s.lut (frameFid f)) f)) := by
  simp only [readRows, runRows, exec, execCheckMin, execParseHeader, execSlicePayload, execCksRx, execCksCalc,
    execCksCompare, execLookup, State.staged_of_le _ hlen, State.setWork, Work.readFrame]

/-- Where the id misses, the rows after LOOKUP change nothing (entry 8). -/
theorem runRows_steeredRows_miss {s : State} {f : Frame} (hlen : 4 ≤ f.length)
    (hmiss : lookLut s.lut (frameFid f) = .miss) : runRows (steeredRows f) s = .next s := by
  obtain ⟨htest, hupdate, hdispatch, hdecode⟩ := unidentifiedFrameLeavesTheSuppressorAlone s f hlen hmiss
  rw [steeredRows, runRows_cons htest, runRows_cons hupdate, runRows_cons hdispatch, runRows_cons hdecode, runRows]

/-- Where the id hits, the rows of the suppressor answer whether the name is a repeat and then store it. -/
theorem runRows_suppress_hit {s : State} {f : Frame} {name : NameTag} {dec : Option Decoder} (hlen : 4 ≤ f.length)
    (hhit : lookLut s.lut (frameFid f) = .hit name dec) (is : List Instr) :
    runRows (.suppressTest f :: .suppressUpdate f :: is) s =
      runRows is ((s.setWork { s.work with drop := some (decide (s.last = some name)) }).setLast name) := by
  have hupdate := exec_suppressUpdate_hit
    (s := s.setWork { s.work with drop := some (decide (s.last = some name)) }) hlen hhit
  rw [runRows_cons (exec_suppressTest_hit hlen hhit), runRows_cons hupdate]

/-- Where the id hits, the last two rows leave the values of the entry's decoder, or none where it has none. -/
theorem runRows_route_hit {s : State} {f : Frame} {name : NameTag} {dec : Option Decoder} (hlen : 4 ≤ f.length)
    (hhit : lookLut s.lut (frameFid f) = .hit name dec) :
    runRows [.dispatch f, .decode f] s = .next (s.setWork (s.work.route s.params dec f)) := by
  cases dec with
  | none =>
    have hunrouted : routedDecoder (lookLut s.lut (frameFid f)) = none := congrArg routedDecoder hhit
    rw [runRows_cons (exec_dispatch_unrouted hlen hunrouted), runRows_cons (exec_decode_unrouted hlen hunrouted)]
    rfl
  | some d =>
    have hdecode := exec_decode_routed (s := s.setWork { s.work with routed := some (d, framePayload f) }) hlen hhit
    rw [runRows_cons (exec_dispatch_routed hlen hhit), runRows_cons hdecode]
    rfl

/-- Where the id hits, the rows after LOOKUP leave its name in LAST and their values. -/
theorem runRows_steeredRows_hit {s : State} {f : Frame} {name : NameTag} {dec : Option Decoder} (hlen : 4 ≤ f.length)
    (hhit : lookLut s.lut (frameFid f) = .hit name dec) :
    runRows (steeredRows f) s = .next ((s.setWork (s.work.steer s name dec f)).setLast name) :=
  (runRows_suppress_hit hlen hhit _).trans (runRows_route_hit hlen hhit)

/-- The order in which the two groups of rows write their values does not matter. -/
theorem Work.steer_readFrame (w : Work) (s : State) (name : NameTag) (dec : Option Decoder) (look : Look) (f : Frame) :
    (w.readFrame look f).steer s name dec f = (w.steer s name dec f).readFrame look f := rfl

section
variable {w : Work} {f : Frame}

theorem assemble_readFrame_miss :
    assemble (w.readFrame .miss f) = some (.frame (frameRec f none .unknownFunctionId none)) := rfl

theorem assemble_readFrame_dropped {name : NameTag} {dec : Option Decoder} (hdrop : w.drop = some true) :
    assemble (w.readFrame (.hit name dec) f) = none := if_pos hdrop

theorem assemble_readFrame_noDecoder {name : NameTag} (hdrop : w.drop ≠ some true) :
    assemble (w.readFrame (.hit name none) f) = some (.frame (frameRec f (some name) .noDecoder none)) := if_neg hdrop

theorem assemble_readFrame_decoded {name : NameTag} {d : Decoder} {result : Except DecodeError Message}
    (hdrop : w.drop ≠ some true) (hresult : w.result = some result) :
    assemble (w.readFrame (.hit name (some d)) f) = some (decodeRecord f name result) := by
  refine (if_neg hdrop).trans ?_
  simp only [Work.readFrame, hresult]
  obtain (_ | _) | m := result <;> rfl

end

/-- The values of an identified frame assemble to the record of the per-frame procedure, and LAST ends with the frame's
name: it was there before where the frame is a repeat. -/
theorem State.runFrame_hit_eq_assemble (s : State) {f : Frame} (name : NameTag) (dec : Option Decoder) (w : Work)
    (hlen : 4 ≤ f.length) :
    s.runFrame (.hit name dec) f =
      { s with
        last := some name
        out := s.out ++ (assemble ((w.steer s name dec f).readFrame (.hit name dec) f)).toList } := by
  by_cases hlast : s.last = some name
  · have hdrop : (w.steer s name dec f).drop = some true := congrArg some (decide_eq_true hlast)
    rw [State.runFrame_suppressed s hlen hlast, assemble_readFrame_dropped hdrop, ← hlast, Option.toList_none,
      List.append_nil]
  · have hdrop : (w.steer s name dec f).drop ≠ some true := by simp [Work.steer, hlast]
    cases dec with
    | none =>
      rw [State.runFrame_noDecoder s hlen hlast, assemble_readFrame_noDecoder hdrop]
      rfl
    | some d =>
      rw [State.runFrame_decodeRecord s hlen hlast, assemble_readFrame_decoded hdrop rfl]
      rfl

/-- Settles O31: the rows up to LOOKUP read the frame, those after it go by the answer, and the values they leave assemble to
the record of that answer. -/
theorem processFrameIsItsRowsInOrder : Obligations.ProcessFrameIsItsRowsInOrder := by
  intro s f hlen
  have hrows : runRows (frameRows f) s =
      runRows (steeredRows f) (s.setWork (s.work.readFrame (lookLut s.lut (frameFid f)) f)) := by
    rw [frameRows_eq_append, runRows_append _ _ (runRows_readRows hlen s)]
  cases hlook : lookLut s.lut (frameFid f) with
  | miss =>
    refine ⟨_, hrows.trans (runRows_steeredRows_miss hlen hlook), rfl, rfl, ?_⟩
    rw [exec_processFrame, State.processFrame_of_look hlook, State.runFrame_miss s hlen, State.setWork_work, hlook,
      assemble_readFrame_miss]
    rfl
  | hit name dec =>
    refine ⟨_, hrows.trans (runRows_steeredRows_hit hlen hlook), rfl, rfl, ?_⟩
    rw [exec_processFrame, State.processFrame_of_look hlook, State.runFrame_hit_eq_assemble s name dec s.work hlen,
      State.setLast_work, State.setWork_work, State.setWork_work, hlook, Work.steer_readFrame]
    rfl

/-! ## What breaks a run (R134) -/

/-- After an identified frame LAST holds its name. -/
theorem State.processFrame_last_of_identified {s : State} {f : Frame} {name : NameTag} (h : identifiedAs s.lut f name) :
    (s.processFrame f).last = some name := by
  obtain ⟨hlen, dec, hhit⟩ := h
  rw [State.processFrame_of_look hhit, State.runFrame_hit_eq_assemble s name dec s.work hlen]

/-- A frame that is not identified leaves LAST as it is. -/
theorem State.processFrame_last_of_notIdentified {s : State} {f : Frame} (h : notIdentified s.lut f) :
    (s.processFrame f).last = s.last := by
  by_cases hlen : f.length < 4
  · rw [State.processFrame, State.runFrame_gate s _ hlen]
  · have hmiss : lookLut s.lut (frameFid f) = .miss := h.resolve_left hlen
    rw [State.processFrame_of_look hmiss, State.runFrame_miss s (Nat.not_lt.mp hlen)]

/-- An identified frame whose name LAST holds leaves the state as it is. -/
theorem State.processFrame_of_repeat {s : State} {f : Frame} {name : NameTag} (h : identifiedAs s.lut f name)
    (hlast : s.last = some name) : s.processFrame f = s := by
  obtain ⟨hlen, dec, hhit⟩ := h
  rw [State.processFrame_of_look hhit, State.runFrame_suppressed s hlen hlast]

@[simp] theorem foldl_processFrame_lut (fs : List Frame) (s : State) : (fs.foldl State.processFrame s).lut = s.lut := by
  induction fs generalizing s with
  | nil => rfl
  | cons f fs ih => rw [List.foldl_cons, ih, State.processFrame_lut]

theorem foldl_processFrame_last_of_notIdentified {us : List Frame} {s : State}
    (h : ∀ u ∈ us, notIdentified s.lut u) : (us.foldl State.processFrame s).last = s.last := by
  induction us generalizing s with
  | nil => rfl
  | cons u us ih =>
    obtain ⟨hu, hus⟩ := List.forall_mem_cons.mp h
    rw [List.foldl_cons, ih (s := s.processFrame u) hus, State.processFrame_last_of_notIdentified hu]

/-- Settles O32: the first frame puts its name into LAST, the frames between leave it there, and so the last frame is a
repeat. -/
theorem unidentifiedFramesDoNotBreakARun : Obligations.UnidentifiedFramesDoNotBreakARun := by
  intro s f g between name hf hg hbetween
  have hlast : ((f :: between).foldl State.processFrame s).last = some name := by
    rw [List.foldl_cons, foldl_processFrame_last_of_notIdentified (s := s.processFrame f) hbetween,
      State.processFrame_last_of_identified hf]
  rw [List.foldl_concat]
  exact State.processFrame_of_repeat (by rwa [foldl_processFrame_lut]) hlast

end Sys2Proof.Machine
end

section
/-! PROOFS. The repeat suppressor (spec/44_repeat_suppressor.md): its two stages, the rows of a repeated name, the run-length
law. -/

namespace Sys2Proof.Machine

/-- Settles O26: past the gate and under a hit each of the two stages makes its one write. -/
theorem suppressorTestsAndStoresTheName : Obligations.SuppressorTestsAndStoresTheName := by
  intro s f name dec hlen hhit
  exact ⟨exec_suppressTest_hit hlen hhit, exec_suppressUpdate_hit hlen hhit⟩

/-! ## The rows of a repeated name (R131, R187) -/

/-- A request row under a name that LAST holds. -/
theorem exec_requestRow_repeat {fid : Byte} {row : NameTag → Option Decoder → Frame → Instr}
    (hrow : requestRow fid = some row) {s : State} {name : NameTag} {f : Frame} (dec : Option Decoder)
    (hlen : 4 ≤ f.length) (hlast : s.last = some name) : exec (row name dec f) s = .next s := by
  rw [exec_requestRow hrow, State.runFrame_suppressed s hlen hlast]

/-- Settles O34: a decoder's row, a request row and FID_46 under a hit are the per-frame procedure, which drops a repeat. -/
theorem repeatedNameIsDropped : Obligations.RepeatedNameIsDropped := by
  intro s f name dec d hlen hlast
  refine ⟨?_, exec_requestRow_repeat requestRow_130 dec hlen hlast, exec_requestRow_repeat requestRow_144 dec hlen hlast,
    exec_requestRow_repeat requestRow_192 dec hlen hlast, exec_requestRow_repeat requestRow_200 dec hlen hlast, ?_⟩
  · rw [exec_decoderRow, State.runFrame_suppressed s hlen hlast]
  · rw [exec_fid46, State.runFrame_suppressed s hlen hlast]

/-! ## The run-length law (R134) -/

/-- An identified frame whose name LAST does not hold leaves its name and one record, whatever its decoder answers. -/
theorem State.processFrame_of_change {s : State} {f : Frame} {name : NameTag} (h : identifiedAs s.lut f name)
    (hlast : s.last ≠ some name) : ∃ r, s.processFrame f = passed s name r := by
  obtain ⟨hlen, dec, hhit⟩ := h
  rw [State.processFrame_of_look hhit]
  cases dec with
  | none => exact ⟨_, State.runFrame_noDecoder s hlen hlast⟩
  | some d => exact ⟨_, State.runFrame_decode s hlen hlast⟩

/-- An identified frame adds a record exactly when LAST does not hold its name. -/
theorem State.processFrame_out_length {s : State} {f : Frame} {name : NameTag} (h : identifiedAs s.lut f name) :
    (s.processFrame f).out.length = s.out.length + (if s.last = some name then 0 else 1) := by
  by_cases hlast : s.last = some name
  · rw [State.processFrame_of_repeat h hlast, if_pos hlast, Nat.add_zero]
  · obtain ⟨r, hpassed⟩ := State.processFrame_of_change h hlast
    rw [hpassed, if_neg hlast, passed, List.length_append, List.length_singleton]

/-- The state after the first `i` frames. -/
def State.afterFrames (s : State) (fs : List Frame) (i : Nat) : State := (fs.take i).foldl State.processFrame s

@[simp] theorem State.afterFrames_lut (s : State) (fs : List Frame) (i : Nat) : (s.afterFrames fs i).lut = s.lut :=
  foldl_processFrame_lut _ s

theorem State.afterFrames_succ (s : State) {fs : List Frame} {i : Nat} {f : Frame} (h : fs[i]? = some f) :
    s.afterFrames fs (i + 1) = (s.afterFrames fs i).processFrame f := by
  rw [State.afterFrames, List.take_add_one, h, Option.toList_some, List.foldl_concat, State.afterFrames]

section
variable {s : State} {fs : List Frame} {ns : List NameTag} (h : List.Forall₂ (identifiedAs s.lut) fs ns)
include h

/-- A name in the sequence of names is that of the frame at its place. -/
theorem exists_frame_of_getElem? {i : Nat} {n : NameTag} (hn : ns[i]? = some n) :
    ∃ f, fs[i]? = some f ∧ identifiedAs s.lut f n := by
  obtain ⟨hi, rfl⟩ := List.getElem?_eq_some_iff.mp hn
  have hi' : i < fs.length := h.length_eq ▸ hi
  exact ⟨fs[i], List.getElem?_eq_getElem hi', h.get hi' hi⟩

/-- After identified frames LAST holds the name of the latest, and before any frame what it held. -/
theorem State.afterFrames_last {i : Nat} (hi : i ≤ ns.length) :
    (s.afterFrames fs i).last = if i = 0 then s.last else ns[i - 1]? := by
  cases i with
  | zero => rfl
  | succ k =>
    have hk : ns[k]? = some ns[k] := List.getElem?_eq_getElem hi
    obtain ⟨f, hf, hid⟩ := exists_frame_of_getElem? h hk
    rw [s.afterFrames_succ hf, State.processFrame_last_of_identified (by rwa [s.afterFrames_lut]),
      if_neg (Nat.succ_ne_zero k), Nat.add_sub_cancel, hk]

end

/-- Settles O33: the frame at place `i` is processed on the state its predecessors leave, whose LAST holds the name just
before. -/
theorem framePassesExactlyWhenNameChanges : Obligations.FramePassesExactlyWhenNameChanges := by
  intro s fs ns hids i n hn
  obtain ⟨f, hf, hid⟩ := exists_frame_of_getElem? hids hn
  have hi : i ≤ ns.length := Nat.le_of_lt (List.getElem?_eq_some_iff.mp hn).1
  have hlast := State.afterFrames_last hids hi
  calc (s.afterFrames fs (i + 1)).out.length
      = ((s.afterFrames fs i).processFrame f).out.length := by rw [s.afterFrames_succ hf]
    _ = (s.afterFrames fs i).out.length + (if (s.afterFrames fs i).last = some n then 0 else 1) :=
        State.processFrame_out_length (by rwa [s.afterFrames_lut])
    _ = (s.afterFrames fs i).out.length + (if (if i = 0 then s.last else ns[i - 1]?) = some n then 0 else 1) := by
        rw [hlast]

end Sys2Proof.Machine
end

section
/-! PROOFS. The field decoders (spec/45_field_decoders.md): the maps from bytes to values, what each decoder answers on
a payload long enough for it, the records that its row reports, and the bytes that no decoder reads. -/

namespace Sys2Proof.Machine

/-! ## Fields of a byte (R8) -/

/-- A field of a byte is a quotient and a remainder of its number. -/
theorem fieldOf_eq (b : Byte) (hi lo : Nat) : fieldOf b hi lo = b.toNat / 2 ^ lo % 2 ^ (hi - lo + 1) := by
  rw [fieldOf, Nat.and_two_pow_sub_one_eq_mod, Nat.shiftRight_eq_div_pow]

/-- A field at the low end of a byte is a remainder of its number. -/
theorem fieldOf_zero (b : Byte) (hi : Nat) : fieldOf b hi 0 = b.toNat % 2 ^ (hi + 1) := by
  rw [fieldOf_eq, Nat.pow_zero, Nat.div_one, Nat.sub_zero]

/-- The high nibble as a field is the high nibble as bits. -/
theorem ofNat_fieldOf_high (b : Byte) : BitVec.ofNat 4 (fieldOf b 7 4) = b.extractLsb' 4 4 := by
  apply BitVec.eq_of_toNat_eq
  rw [fieldOf_eq, BitVec.toNat_ofNat, BitVec.extractLsb'_toNat, Nat.shiftRight_eq_div_pow, Nat.mod_mod]

/-! ## The maps from bytes to values (R144, R153, R155, R157) -/

/-- Settles O38: the four codes evaluate, and any other falls through all four tests. -/
theorem proximityMap : Obligations.ProximityMap := by
  refine ⟨rfl, rfl, rfl, rfl, fun c h1 h2 h3 h4 => ?_⟩
  rw [lvl, if_neg h1, if_neg h2, if_neg h3, if_neg h4]

theorem quantity_tenth (n : Nat) : quantity n 10 = (n : Rat) / 10 := by
  rw [quantity_eq_div, Int.cast_natCast, Nat.cast_ofNat]

theorem tempOf_degF {r : Byte} (h0 : r.toNat ≠ 0) (h255 : r.toNat ≠ 255) : tempOf r true = .degF r.toNat := by
  rw [tempOf, if_pos rfl, if_neg h0, if_neg h255]

/-- Above 31 a Celsius byte counts steps of two degrees. -/
theorem tempOf_double {r : Byte} (h : 31 < r.toNat) : tempOf r false = .degC ((r.toNat : Rat) * 2) := by
  rw [tempOf, if_neg Bool.false_ne_true, if_pos h, quantity_eq_div]
  congr 1
  push_cast
  ring

/-- From 1 to 30 a Celsius byte counts half degrees from 17.5. -/
theorem tempOf_half {r : Byte} (hpos : 0 < r.toNat) (hlt : r.toNat < 31) :
    tempOf r false = .degC ((r.toNat : Rat) / 2 + 35 / 2) := by
  rw [tempOf, if_neg Bool.false_ne_true, if_neg (by omega), if_neg (by omega), if_neg (by omega), quantity_eq_div]
  congr 1
  push_cast
  ring

/-- Settles O44: the four ends evaluate, and the bytes between them are one formula in Fahrenheit and two in Celsius. -/
theorem temperatureMap : Obligations.TemperatureMap :=
  ⟨rfl, rfl, fun _ => tempOf_degF, rfl, rfl, fun _ => tempOf_double, fun _ => tempOf_half⟩

theorem pressOf_sentinel {r : Byte} (h : r.toNat = 0 ∨ r.toNat = 255) (scale : Rat) : pressOf r scale = -1 := by
  rw [pressOf, if_pos h]
  rfl

/-- A byte that is no sentinel is scaled: the quotient of the scale's numerator and denominator is the scale. -/
theorem pressOf_scaled {r : Byte} (h0 : r.toNat ≠ 0) (h255 : r.toNat ≠ 255) (scale : Rat) :
    pressOf r scale = (r.toNat : Rat) * scale := by
  rw [pressOf, if_neg (not_or.mpr ⟨h0, h255⟩)]
  calc quantity (r.toNat * scale.num) scale.den
      = (r.toNat : Rat) * (scale.num / scale.den) := by rw [quantity_eq_div]; push_cast; rw [mul_div_assoc]
    _ = (r.toNat : Rat) * scale := by rw [Rat.num_div_den]

/-- Settles O46: the two sentinels, and any other byte scaled. -/
theorem pressureMap : Obligations.PressureMap := fun scale =>
  ⟨pressOf_sentinel (.inl rfl) scale, pressOf_sentinel (.inr rfl) scale, fun _ h0 h255 => pressOf_scaled h0 h255 scale⟩

/-- The sign test of R157 looks at bit 3 of a multiple of 256, so its branch is never taken. -/
theorem swcAngleOf_eq (b0 b1 : Byte) : swcAngleOf b0 b1 = -((b0.toNat : Int) + 256 * b1.toNat) := by
  have hsign : ((b1.toNat * 256) >>> 3) &&& 1 ≠ 1 := by
    rw [Nat.shiftRight_eq_div_pow, Nat.and_one_is_mod]
    omega
  rw [swcAngleOf, if_neg hsign]
  push_cast
  ring

/-! ## Units (R149, R154, R156) -/

/-- The unit bits 00, 01 and 10 with the unit and the scale they select (R154). -/
theorem tpmsUnitScale_ok {b : Byte} {unit : Nat} {scale : Rat}
    (h : (b.toNat % 4 = 0 ∧ unit = 2 ∧ scale = 1 / 10) ∨ (b.toNat % 4 = 1 ∧ unit = 1 ∧ scale = 1) ∨
      (b.toNat % 4 = 2 ∧ unit = Config.tpmsUnit10 ∧ scale = 1)) : tpmsUnitScale b = .ok (unit, scale) := by
  have hfield : fieldOf b 1 0 = b.toNat % 4 := fieldOf_zero b 1
  have htenth : quantity 1 10 = 1 / 10 := quantity_tenth 1
  rw [tpmsUnitScale, hfield]
  obtain ⟨hbits, rfl, rfl⟩ | ⟨hbits, rfl, rfl⟩ | ⟨hbits, rfl, rfl⟩ := h
  · rw [hbits, ← htenth]; rfl
  · rw [hbits]; rfl
  · rw [hbits]; rfl

theorem tpmsUnitScale_malformed {b : Byte} (h : b.toNat % 4 = 3) : tpmsUnitScale b = .error .malformed := by
  have hfield : fieldOf b 1 0 = b.toNat % 4 := fieldOf_zero b 1
  rw [tpmsUnitScale, hfield, h]
  rfl

/-- The unit that the first of some rows of R156's table gives whose key is the code. -/
def travelUnitIn (rows : List (Fin 7 × TravelUnit)) (u : Byte) : TravelUnit :=
  match rows.find? (fun r => Config.toUnitKey r.1 == u) with
  | some r => r.2
  | none => Config.toUnitDefault u

theorem travelUnitOf_eq_travelUnitIn (u : Byte) : travelUnitOf u = travelUnitIn travelRows u := rfl

theorem travelUnitIn_nil (u : Byte) : travelUnitIn [] u = Config.toUnitDefault u := rfl

theorem travelUnitIn_cons (k : Fin 7) (unit : TravelUnit) (rows : List (Fin 7 × TravelUnit)) (u : Byte) :
    travelUnitIn ((k, unit) :: rows) u = if u = Config.toUnitKey k then unit else travelUnitIn rows u := by
  by_cases h : u = Config.toUnitKey k
  · rw [if_pos h, travelUnitIn, List.find?_cons_of_pos (by simp [h])]
  · rw [if_neg h, travelUnitIn, travelUnitIn, List.find?_cons_of_neg (by simp [Ne.symm h])]

/-- The rows of the table as a chain of tests, in their order. -/
theorem travelUnitOf_eq (u : Byte) :
    travelUnitOf u =
      if u = Config.toUnitKey 0 then ⟨.mpg, some 60⟩
      else if u = Config.toUnitKey 1 then ⟨.kmh, some 30⟩
      else if u = Config.toUnitKey 2 then ⟨.l100km, some 30⟩
      else if u = Config.toUnitKey 3 then ⟨.ev 0, none⟩
      else if u = Config.toUnitKey 4 then ⟨.ev 1, none⟩
      else if u = Config.toUnitKey 5 then ⟨.ev 2, none⟩
      else if u = Config.toUnitKey 6 then ⟨.ev 3, none⟩
      else Config.toUnitDefault u := by
  simp only [travelUnitOf_eq_travelUnitIn, travelRows, travelUnitIn_cons, travelUnitIn_nil]

/-- The keys of the mileage units differ (R149). -/
structure UnitKeysDistinct (pr : Params) : Prop where
  space_mile : pr.bfKeySpace ≠ pr.bfKeyMile
  space_km : pr.bfKeySpace ≠ pr.bfKeyKm
  mile_km : pr.bfKeyMile ≠ pr.bfKeyKm

theorem unitKeysDistinct_of_paramsConform {pr : Params} (h : paramsConform pr = true) : UnitKeysDistinct pr := by
  simp only [paramsConform, Bool.and_eq_true, bne_iff_ne] at h
  constructor <;> tauto

theorem mileageUnitOf_space (pr : Params) : mileageUnitOf pr pr.bfKeySpace = .space := if_pos rfl

theorem mileageUnitOf_mile {pr : Params} (h : UnitKeysDistinct pr) : mileageUnitOf pr pr.bfKeyMile = .mile := by
  rw [mileageUnitOf, if_neg h.space_mile.symm, if_pos rfl]

theorem mileageUnitOf_km {pr : Params} (h : UnitKeysDistinct pr) : mileageUnitOf pr pr.bfKeyKm = .km := by
  rw [mileageUnitOf, if_neg h.space_km.symm, if_neg h.mile_km.symm, if_pos rfl]

theorem mileageUnitOf_unknown {pr : Params} {u : Byte} (hspace : u ≠ pr.bfKeySpace) (hmile : u ≠ pr.bfKeyMile)
    (hkm : u ≠ pr.bfKeyKm) : mileageUnitOf pr u = .unknown u := by
  rw [mileageUnitOf, if_neg hspace, if_neg hmile, if_neg hkm]

/-! ## Big-endian reads of two bytes (R107) -/

/-- A read of two bytes inside the payload meets neither the guard nor the range rule. -/
theorem rd_two_be {p : List Byte} {off : Nat} (h : off + 2 ≤ p.length) : rd p off 2 .be = .ok (be16 p off) := by
  rw [rd_of_fits (by omega) h, rdSum_be_succ, rdSum_be_succ, be16]
  congr 1
  simp only [rdSum, List.range_zero, List.map_nil, List.sum_nil, Nat.add_zero]
  omega

theorem be16_append {p : List Byte} {off : Nat} (h : off + 2 ≤ p.length) (more : List Byte) :
    be16 (p ++ more) off = be16 p off := by
  rw [be16, be16, List.getD_append _ _ _ _ (by omega), List.getD_append _ _ _ _ (by omega)]

/-! ## The row of a decoder whose decode answers (R121, R124) -/

/-- The record of a decode that answers a message. -/
theorem exec_decoderRow_decoded {s : State} {f : Frame} {name : NameTag} {d : Decoder} {m : Message}
    (hlen : 4 ≤ f.length) (hlast : s.last ≠ some name) (hdec : decodePayload s.params d (framePayload f) = .ok m) :
    exec (decoderRow d name f) s = .next (passed s name (.frame (frameRec f (some name) .decoded (some m)))) := by
  rw [exec_decoderRow_passed d hlen hlast, hdec, decodeRecord]

/-! ## Radar (R144 to R147) -/

theorem decodePayload_radarFront (pr : Params) (c0 c1 c2 c3 : Byte) (rest : List Byte) :
    decodePayload pr .radarFront (c0 :: c1 :: c2 :: c3 :: rest) =
      .ok (.radarFront ⟨lvl c0, lvl c1, lvl c2, lvl c3⟩) :=
  decodePayload_of_le (by simp [minLen])

/-- Settles O39: four bytes or more decode to four levels. -/
theorem radarFrontReportsFourLevels : Obligations.RadarFrontReportsFourLevels := by
  intro s f name hlen hlast
  refine ⟨fun c0 c1 c2 c3 rest hpayload => ?_, shortPayloadIsReportedAndNameKept s f name .radarFront hlen hlast⟩
  exact exec_decoderRow_decoded (d := .radarFront) hlen hlast (by rw [hpayload, decodePayload_radarFront])

theorem centralOf_eq (c : Byte) :
    centralOf c =
      { radarEnabled := c.getLsbD 7, sensitivity := c.getLsbD 6, alarmVolumeSwitch := c.getLsbD 4,
        volumeLevel := c.toNat % 8 } := by
  rw [centralOf, fieldOf_zero]
  rfl

theorem decodePayload_radarRear (pr : Params) (c0 c1 c2 c3 c4 : Byte) (rest : List Byte) :
    decodePayload pr .radarRear (c0 :: c1 :: c2 :: c3 :: c4 :: rest) =
      .ok (.radarRear ⟨lvl c0, lvl c1, lvl c2, lvl c3, centralOf c4⟩) :=
  decodePayload_of_le (by simp [minLen])

/-- Settles O40: five bytes or more decode to four levels and the bits of the CentralState byte. -/
theorem radarRearReportsLevelsAndCentral : Obligations.RadarRearReportsLevelsAndCentral := by
  intro s f name hlen hlast
  refine ⟨fun c0 c1 c2 c3 c4 rest hpayload => ?_, shortPayloadIsReportedAndNameKept s f name .radarRear hlen hlast⟩
  exact exec_decoderRow_decoded (d := .radarRear) hlen hlast
    (by rw [hpayload, decodePayload_radarRear, centralOf_eq])

/-! ## OilElectricityInfo (R148) -/

theorem decodePayload_oilElec (pr : Params) (b0 b1 : Byte) (rest : List Byte) :
    decodePayload pr .oilElec (b0 :: b1 :: rest) =
      .ok (.oilElectricity
        { batteryCapacity := b0.toNat % 8, hybrid := b0.getLsbD 7
          powerFlow :=
            ⟨b1.getLsbD 0, b1.getLsbD 1, b1.getLsbD 2, b1.getLsbD 3, b1.getLsbD 4, b1.getLsbD 5⟩ }) := by
  have hcapacity : fieldOf b0 2 0 = b0.toNat % 8 := fieldOf_zero b0 2
  rw [decodePayload_of_le (by simp [minLen]), ← hcapacity]
  rfl

/-- Settles O41: two bytes or more decode to their bits. -/
theorem oilElectricityReportsItsBits : Obligations.OilElectricityReportsItsBits := by
  intro s f name hlen hlast
  refine ⟨fun b0 b1 rest hpayload => ?_, shortPayloadIsReportedAndNameKept s f name .oilElec hlen hlast⟩
  exact exec_decoderRow_decoded (d := .oilElec) hlen hlast (by rw [hpayload, decodePayload_oilElec])

/-! ## BasicFlyInfo (R149) -/

/-- With a consistent layout the reads of BASIC_FLY lie inside the payload. -/
theorem decodePayload_basicFly {pr : Params} {p : List Byte} {u : Byte} (hfit : LayoutsFit pr)
    (hlen : pr.mlBasicFly ≤ p.length) (hu : p[pr.bfOffUnit]? = some u) :
    decodePayload pr .basicFly p =
      .ok (.basicFly
        { averageSpeed := (be16 p pr.bfOffSpeed : Rat) / 10
          driverTime := be16 p pr.bfOffTime
          mileage := be16 p pr.bfOffMileage
          mileageUnit := mileageUnitOf pr u }) := by
  rw [decodePayload_of_le (d := .basicFly) hlen, decodeBody, decodeBasicFly, rd_two_be (hfit.speed.trans hlen),
    rd_two_be (hfit.time.trans hlen), rd_two_be (hfit.mileage.trans hlen), byteAt_eq_ok_iff.mpr hu, ← quantity_tenth]
  rfl

/-- Settles O42: the unit is that of the unit byte, which lies inside the payload; the keys being distinct, each selects
its own. -/
theorem basicFlyReportsBigEndianValues : Obligations.BasicFlyReportsBigEndianValues := by
  intro s f name hlen hlast hconform hpayload
  have hfit := layoutsFit_of_paramsConform hconform
  have hkeys := unitKeysDistinct_of_paramsConform hconform
  obtain ⟨u, hu⟩ : ∃ u, (framePayload f)[s.params.bfOffUnit]? = some u :=
    ⟨_, List.getElem?_eq_getElem (hfit.unit.trans hpayload)⟩
  refine ⟨mileageUnitOf s.params u,
    exec_decoderRow_decoded (d := .basicFly) hlen hlast (decodePayload_basicFly hfit hpayload hu), ?_⟩
  simp only [hu, Option.some.injEq]
  refine ⟨?_, ?_, ?_, ?_⟩
  · rintro rfl; exact mileageUnitOf_space _
  · rintro rfl; exact mileageUnitOf_mile hkeys
  · rintro rfl; exact mileageUnitOf_km hkeys
  · rintro b rfl hspace hmile hkm; exact mileageUnitOf_unknown hspace hmile hkm

/-! ## CarDoorInfo (R150) -/

theorem decodePayload_carDoor (pr : Params) (b0 b1 : Byte) (rest : List Byte) :
    decodePayload pr .carDoor (b0 :: b1 :: rest) =
      .ok (.carDoor
        { frontRight := b0.getLsbD (flagBit pr.flagOrder 7 3), frontLeft := b0.getLsbD (flagBit pr.flagOrder 6 4)
          backRight := b0.getLsbD (flagBit pr.flagOrder 5 5), backLeft := b0.getLsbD (flagBit pr.flagOrder 4 6)
          trunk := b0.getLsbD (flagBit pr.flagOrder 3 7)
          frontCover := b1.getLsbD 7, skyWindow := b1.toNat / 32 % 4 }) := by
  have hwindow : fieldOf b1 6 5 = b1.toNat / 32 % 4 := fieldOf_eq b1 6 5
  rw [decodePayload_of_le (by simp [minLen]), ← hwindow]
  rfl

/-- Settles O43: two bytes or more decode to their flags, whose places the flag order selects. -/
theorem carDoorReportsItsFlags : Obligations.CarDoorReportsItsFlags := by
  intro s f name hlen hlast
  refine ⟨fun b0 b1 rest hpayload => ⟨fun horder => ?_, fun horder => ?_⟩,
    shortPayloadIsReportedAndNameKept s f name .carDoor hlen hlast⟩
  all_goals
    exact exec_decoderRow_decoded (d := .carDoor) hlen hlast (by rw [hpayload, decodePayload_carDoor, horder]; rfl)

/-! ## ACState (R151 to R153) -/

/-- Settles O45: eight bytes or more decode; the flags of byte 0 are where the flag order puts them, the other fields
are bits and fields of their bytes. -/
theorem acStateReportsItsFields : Obligations.AcStateReportsItsFields := by
  intro s f name hlen hlast
  refine ⟨fun b0 b1 b2 b3 b4 b5 b6 b7 rest hpayload => ?_,
    shortPayloadIsReportedAndNameKept s f name .acState hlen hlast⟩
  refine ⟨_, exec_decoderRow_decoded (d := .acState) hlen hlast
    (by rw [hpayload]; exact decodePayload_of_le (by simp [minLen])), ?_⟩
  refine ⟨fun horder => ?_, fun horder => ?_, rfl, rfl, rfl, fieldOf_zero b1 3, rfl, rfl, rfl, rfl, rfl, rfl, rfl,
    fieldOf_zero b5 1, fieldOf_eq b5 3 2, fieldOf_zero b7 3, congrArg Config.acB7Layout (ofNat_fieldOf_high b7)⟩
  · simp only [horder]
    exact ⟨rfl, rfl, rfl, rfl, rfl, rfl, rfl⟩
  · simp only [horder]
    exact ⟨rfl, rfl, rfl, rfl, rfl, rfl, rfl⟩

/-! ## TPMSInfo (R154, R155) -/

section
variable (b0 b1 b2 b3 b4 b5 : Byte)

/-- The message of six bytes under a unit and a scale. -/
def tpmsOf (unit : Nat) (scale : Rat) : Tpms where
  unit := unit
  scale := scale
  alarmActive := b0.getLsbD 6
  wheelAlarm := if b0.getLsbD 6 = true then ⟨3, 3, 3, 3⟩ else ⟨0, 0, 0, 0⟩
  wheelPressure := ⟨pressOf b1 scale, pressOf b2 scale, pressOf b3 scale, pressOf b4 scale⟩
  sparePressure := pressOf b5 scale

/-- Six bytes or more decode exactly when the unit bits select a unit and a scale. -/
theorem decodePayload_tpms (pr : Params) (rest : List Byte) :
    decodePayload pr .tpms (b0 :: b1 :: b2 :: b3 :: b4 :: b5 :: rest) =
      (tpmsUnitScale b0).map fun us => .tpms (tpmsOf b0 b1 b2 b3 b4 b5 us.1 us.2) := by
  have halarm (alarmed : Bool) : (if alarmed = true then (⟨3, 3, 3, 3⟩ : Four Nat) else ⟨0, 0, 0, 0⟩) =
      ⟨if alarmed then 3 else 0, if alarmed then 3 else 0, if alarmed then 3 else 0, if alarmed then 3 else 0⟩ := by
    cases alarmed <;> rfl
  rw [decodePayload_of_le (by simp [minLen])]
  simp only [tpmsOf, halarm]
  rfl

end

/-- Settles O47: six bytes or more decode as their unit bits do. -/
theorem tpmsReportsAlarmsAndPressures : Obligations.TpmsReportsAlarmsAndPressures := by
  intro s f name hlen hlast
  refine ⟨fun b0 b1 b2 b3 b4 b5 rest hpayload => ⟨fun unit scale hunit => ?_, fun hbits => ?_⟩,
    shortPayloadIsReportedAndNameKept s f name .tpms hlen hlast⟩
  · exact exec_decoderRow_decoded (d := .tpms) hlen hlast
      (by rw [hpayload, decodePayload_tpms, tpmsUnitScale_ok hunit]; rfl)
  · refine (exec_decoderRow_passed .tpms hlen hlast).trans ?_
    rw [hpayload, decodePayload_tpms, tpmsUnitScale_malformed hbits]
    rfl

/-! ## TravelOilInfo (R156) -/

/-- With a consistent layout the reads of TRAVEL_OIL lie inside the payload. -/
theorem decodePayload_travelOil {pr : Params} {p : List Byte} {u : Byte} (hfit : LayoutsFit pr)
    (hlen : pr.mlTravelOil ≤ p.length) (hu : p[0]? = some u) :
    decodePayload pr .travelOil p =
      .ok (.travelOil
        { unit := travelUnitOf u
          consumption :=
            ⟨(be16 p pr.toOff.k0 : Rat) / 10, (be16 p pr.toOff.k1 : Rat) / 10, (be16 p pr.toOff.k2 : Rat) / 10,
             (be16 p pr.toOff.k3 : Rat) / 10, (be16 p pr.toOff.k4 : Rat) / 10, (be16 p pr.toOff.k5 : Rat) / 10⟩ }) := by
  rw [decodePayload_of_le (d := .travelOil) hlen, decodeBody, decodeTravelOil, byteAt_eq_ok_iff.mpr hu,
    rd_two_be (hfit.travel0.trans hlen), rd_two_be (hfit.travel1.trans hlen), rd_two_be (hfit.travel2.trans hlen),
    rd_two_be (hfit.travel3.trans hlen), rd_two_be (hfit.travel4.trans hlen), rd_two_be (hfit.travel5.trans hlen)]
  simp only [← quantity_tenth]
  rfl

/-- Settles O48: the reads are big-endian numbers of two bytes, and the unit is that of the first row whose key is the
code. -/
theorem travelOilReportsSixFigures : Obligations.TravelOilReportsSixFigures := by
  intro s f name hlen hlast hconform hpayload b hb
  rw [← travelUnitOf_eq]
  exact exec_decoderRow_decoded (d := .travelOil) hlen hlast
    (decodePayload_travelOil (layoutsFit_of_paramsConform hconform) hpayload hb)

/-! ## SWCAngle (R157) -/

theorem decodePayload_swcAngle (pr : Params) (b0 b1 : Byte) (rest : List Byte) :
    decodePayload pr .swcAngle (b0 :: b1 :: rest) = .ok (.swcAngle (swcAngleOf b0 b1)) :=
  decodePayload_of_le (by simp [minLen])

/-- Settles O49: two bytes or more decode to the angle, whose sign branch is never taken. -/
theorem swcAngleIsMinusTheComposite : Obligations.SwcAngleIsMinusTheComposite := by
  intro s f name hlen hlast
  refine ⟨fun b0 b1 rest hpayload => ?_, shortPayloadIsReportedAndNameKept s f name .swcAngle hlen hlast⟩
  exact exec_decoderRow_decoded (d := .swcAngle) hlen hlast
    (by rw [hpayload, decodePayload_swcAngle, swcAngleOf_eq])

/-! ## DataRequest and ACSetting (R159) -/

theorem decodePayload_dataRequest (pr : Params) (code : Byte) (rest : List Byte) :
    decodePayload pr .dataRequest (code :: rest) = .ok (.dataRequest ⟨code, Config.drLabel code⟩) :=
  decodePayload_of_le (by simp [minLen])

theorem decodePayload_acSetting (pr : Params) (code : Byte) (rest : List Byte) :
    decodePayload pr .acSetting (code :: rest) = .ok (.acSetting ⟨code, Config.asLabel code⟩) :=
  decodePayload_of_le (by simp [minLen])

/-- Settles O52: one byte or more decodes to the code and what its table answers, recognised or not. -/
theorem commandsReportCodeAndLabel : Obligations.CommandsReportCodeAndLabel := by
  intro s f name hlen hlast
  refine ⟨fun code rest hpayload => ⟨?_, ?_⟩, fun hpayload => ?_⟩
  · exact exec_decoderRow_decoded (d := .dataRequest) hlen hlast (by rw [hpayload, decodePayload_dataRequest])
  · exact exec_decoderRow_decoded (d := .acSetting) hlen hlast (by rw [hpayload, decodePayload_acSetting])
  · have hshort : (framePayload f).length < 1 := by simp [hpayload]
    exact ⟨shortPayloadIsReportedAndNameKept s f name .dataRequest hlen hlast hshort,
      shortPayloadIsReportedAndNameKept s f name .acSetting hlen hlast hshort⟩

/-! ## The bytes that no decoder reads (R142) -/

/-- What the one read or decode answers, the other answers too. -/
def AnswersAlso {α : Type} (x y : Except DecodeError α) : Prop := ∀ v, x = .ok v → y = .ok v

theorem AnswersAlso.refl {α : Type} (x : Except DecodeError α) : AnswersAlso x x := fun _ h => h

/-- The first parts answer the same, and so does what follows on it. -/
theorem AnswersAlso.bind {α β : Type} {x y : Except DecodeError α} {g h : α → Except DecodeError β}
    (hxy : AnswersAlso x y) (hgh : ∀ v, AnswersAlso (g v) (h v)) : AnswersAlso (x >>= g) (y >>= h) := by
  intro w hw
  cases x with
  | error e => exact nomatch hw
  | ok v =>
    rw [hxy v rfl]
    exact hgh v w hw

section
variable {p : List Byte} (more : List Byte)

/-- A byte of the payload stays where it is. -/
theorem AnswersAlso.byteAt (i : Nat) : AnswersAlso (byteAt p i) (byteAt (p ++ more) i) := by
  intro b hb
  rw [byteAt_eq_ok_iff] at hb ⊢
  rw [List.getElem?_append_left (List.getElem?_eq_some_iff.mp hb).1, hb]

theorem AnswersAlso.rd {off : Nat} (h : off + 2 ≤ p.length) :
    AnswersAlso (rd p off 2 .be) (rd (p ++ more) off 2 .be) := by
  have hlonger : off + 2 ≤ (p ++ more).length := by rw [List.length_append]; omega
  rw [rd_two_be h, rd_two_be hlonger, be16_append h]
  exact .refl _

theorem AnswersAlso.decodeBasicFly {pr : Params} (hfit : LayoutsFit pr) (h : pr.mlBasicFly ≤ p.length) :
    AnswersAlso (decodeBasicFly pr p) (decodeBasicFly pr (p ++ more)) :=
  .bind (.rd more (hfit.speed.trans h)) fun _ =>
  .bind (.rd more (hfit.time.trans h)) fun _ =>
  .bind (.rd more (hfit.mileage.trans h)) fun _ =>
  .bind (.byteAt more _) fun _ => .refl _

theorem AnswersAlso.decodeTravelOil {pr : Params} (hfit : LayoutsFit pr) (h : pr.mlTravelOil ≤ p.length) :
    AnswersAlso (decodeTravelOil pr p) (decodeTravelOil pr (p ++ more)) :=
  .bind (.byteAt more _) fun _ =>
  .bind (.rd more (hfit.travel0.trans h)) fun _ =>
  .bind (.rd more (hfit.travel1.trans h)) fun _ =>
  .bind (.rd more (hfit.travel2.trans h)) fun _ =>
  .bind (.rd more (hfit.travel3.trans h)) fun _ =>
  .bind (.rd more (hfit.travel4.trans h)) fun _ =>
  .bind (.rd more (hfit.travel5.trans h)) fun _ => .refl _

/-- Every decoder but CAR_INFO reads single bytes and, at the offsets of a consistent layout, numbers of two bytes. -/
theorem AnswersAlso.decodeBody {pr : Params} {d : Decoder} (hfit : LayoutsFit pr) (hd : d ≠ .carInfo)
    (h : minLen pr d ≤ p.length) : AnswersAlso (decodeBody pr d p) (decodeBody pr d (p ++ more)) := by
  cases d with
  | carInfo => exact absurd rfl hd
  | basicFly => exact .decodeBasicFly more hfit h
  | travelOil => exact .decodeTravelOil more hfit h
  | radarFront | radarRear | oilElec | swcAngle | carDoor | tpms | acState | dataRequest | acSetting =>
    repeat refine .bind (.byteAt more _) fun _ => ?_
    exact .refl _

end

/-- Settles O36: a payload that decodes is long enough, so the longer one is, and its decoder reads the same bytes. -/
theorem longerPayloadDecodesTheSame : Obligations.LongerPayloadDecodesTheSame := by
  intro pr d p more m hconform hd hdec
  obtain hshort | hlen := Nat.lt_or_ge p.length (minLen pr d)
  · exact nomatch (decodePayload_of_lt hshort).symm.trans hdec
  · have hlonger : minLen pr d ≤ (p ++ more).length := by rw [List.length_append]; omega
    rw [decodePayload_of_le hlonger]
    exact AnswersAlso.decodeBody more (layoutsFit_of_paramsConform hconform) hd hlen m
      ((decodePayload_of_le hlen).symm.trans hdec)

end Sys2Proof.Machine
end

section
/-! PROOFS. Exceptions (spec/60_exceptions.md): what stops a step, and that nothing stops a run of an unbounded build. -/

namespace Sys2Proof.Machine

/-! ## What stops a step (R190, R197) -/

/-- Of the operations of a stimulus APPEND alone can stop, at a full BUF. -/
theorem exec_decodeStimulus_next_or_overflow (x : Stimulus) (s : State) :
    (∃ u, exec (decodeStimulus x) s = .next u) ∨
    (exec (decodeStimulus x) s = .fault .bufferOverflow ∧
      ∃ b, x = .byte b ∧ b ≠ Config.delim ∧ s.bufFull = true) := by
  cases x with
  | noData => exact .inl ⟨_, exec_noData s⟩
  | reset => exact .inl ⟨_, exec_reset s⟩
  | byte b =>
    by_cases hb : b = Config.delim
    · rw [decodeStimulus, if_pos hb]
      exact .inl ⟨_, exec_delim s⟩
    · rw [decodeStimulus, if_neg hb]
      cases hfull : s.bufFull with
      | false => exact .inl ⟨_, exec_append_of_room hfull⟩
      | true => exact .inr ⟨exec_append_of_full hfull, b, rfl, hb, rfl⟩

/-- Settles O12: a step without a stimulus is NODATA, and one with a stimulus stops where the stimulus's operation does;
fetching changes neither BUF nor BUF_CAP. -/
theorem onlyOverflowStopsAStep : Obligations.OnlyOverflowStopsAStep := by
  intro s
  cases hinput : s.input with
  | nil => exact .inl ⟨_, stepWithoutStimulusChangesNothing s hinput⟩
  | cons x rest =>
    rw [step_of_stimulus hinput]
    obtain ⟨u, hexec⟩ | ⟨hexec, b, rfl, hb, hfull⟩ :=
      exec_decodeStimulus_next_or_overflow x { s with input := rest }
    · exact .inl ⟨u.dropWork, by rw [hexec]⟩
    · obtain ⟨c, hcap, hlen⟩ := (State.bufFull_iff _).mp hfull
      exact .inr ⟨by rw [hexec], b, rest, c, rfl, hb, hcap, hlen⟩

/-! ## Runs of an unbounded build (R197, R214) -/

/-- No step changes the constants: neither the fetch, nor any operation, nor the end of the step. -/
theorem step_params {s t : State} (h : step s = .next t) : t.params = s.params := by
  obtain ⟨u, hexec, rfl⟩ := step_next h
  obtain ⟨-, hparams, -⟩ := onlyTheNamedOperationsWrite _ _ _ hexec
  rw [State.dropWork_params, hparams, State.fetch_eq]

theorem exists_step_of_unbounded {s : State} (hcap : s.params.bufCap = none) : ∃ t, step s = .next t := by
  obtain hnext | ⟨-, b, rest, c, -, -, hfinite, -⟩ := onlyOverflowStopsAStep s
  · exact hnext
  · exact absurd (hcap.symm.trans hfinite) (Option.some_ne_none c).symm

/-- Settles O11: by induction on the number of steps; each step of an unbounded build has a next state, which is again
one of an unbounded build. -/
theorem unboundedBuildNeverStops : Obligations.UnboundedBuildNeverStops := by
  intro s hcap k
  induction k generalizing s with
  | zero => exact ⟨s, run_zero s⟩
  | succ k ih =>
    obtain ⟨t, hstep⟩ := exists_step_of_unbounded hcap
    rw [run_next hstep]
    exact ih t (by rw [step_params hstep, hcap])

end Sys2Proof.Machine
end
